-- ==== Sys2Proof/Word.lean ====
section
/-! DEFINITION. The word types of the core block and their plainest arithmetic.

Every register is 8 or 16 bits wide and every value is unsigned (spec 00_scope.md R13, R16). The operand fields of an
instruction word are 4, 8 and 12 bits wide (30_encoding.md R71). -/

namespace Sys2Proof

/-- A 4-bit field: a register index `x` or `y`, the row count `n`, one nibble of an instruction word (R70, R71). -/
abbrev Nibble := BitVec 4

/-- An 8-bit value: a V register, a timer, a byte of memory, the immediate `nn` (R20, R24, R29, R71). -/
abbrev Byte := BitVec 8

/-- A 12-bit address immediate `nnn` (R71). -/
abbrev Addr12 := BitVec 12

/-- A 16-bit value: I, PC, a stack slot, an instruction word (R22, R23, R27, R70). -/
abbrev Word := BitVec 16

/-- `zext_16(nnn)` (R13, R73). -/
def zext12 (a : Addr12) : Word := a.setWidth 16

/-- `zext_16(v)` of a byte (R13). -/
def zext8 (b : Byte) : Word := b.setWidth 16

end Sys2Proof
end

