-- ==== Sys2Proof/Syntax.lean ====
section
/-! DEFINITION. The instructions: one constructor per row of spec/opcode_table.json, in the order of the opcode map of
spec 30_encoding.md R74, with the operand fields of R72. -/

namespace Sys2Proof

/-- The 34 instructions of R74. `x` and `y` are register indices, `nn` a byte, `nnn` a 12-bit address, `n` a row count. -/
inductive Instr where
  /-- `00E0` CLS (R170). -/
  | cls
  /-- `00EE` RET (R100). -/
  | ret
  /-- `1nnn` JP nnn (R101). -/
  | jp (nnn : Addr12)
  /-- `2nnn` CALL nnn (R102). -/
  | call (nnn : Addr12)
  /-- `3xnn` SE Vx, nn (R103). -/
  | seByte (x : Nibble) (nn : Byte)
  /-- `4xnn` SNE Vx, nn (R104). -/
  | sneByte (x : Nibble) (nn : Byte)
  /-- `5xy0` SE Vx, Vy (R105). -/
  | seReg (x y : Nibble)
  /-- `6xnn` LD Vx, nn (R120). -/
  | ldByte (x : Nibble) (nn : Byte)
  /-- `7xnn` ADD Vx, nn (R121). -/
  | addByte (x : Nibble) (nn : Byte)
  /-- `8xy0` LD Vx, Vy (R122). -/
  | ldReg (x y : Nibble)
  /-- `8xy1` OR Vx, Vy (R123). -/
  | orReg (x y : Nibble)
  /-- `8xy2` AND Vx, Vy (R124). -/
  | andReg (x y : Nibble)
  /-- `8xy3` XOR Vx, Vy (R125). -/
  | xorReg (x y : Nibble)
  /-- `8xy4` ADD Vx, Vy (R126). -/
  | addReg (x y : Nibble)
  /-- `8xy5` SUB Vx, Vy (R127). -/
  | subReg (x y : Nibble)
  /-- `8xy6` SHR Vx (R128); the field y is decoded and not used (R76). -/
  | shr (x y : Nibble)
  /-- `8xy7` SUBN Vx, Vy (R129). -/
  | subnReg (x y : Nibble)
  /-- `8xyE` SHL Vx (R130); the field y is decoded and not used (R76). -/
  | shl (x y : Nibble)
  /-- `9xy0` SNE Vx, Vy (R106). -/
  | sneReg (x y : Nibble)
  /-- `Annn` LD I, nnn (R150). -/
  | ldI (nnn : Addr12)
  /-- `Bnnn` JP V0, nnn (R107). -/
  | jpV0 (nnn : Addr12)
  /-- `Cxnn` RND Vx, nn (R131). -/
  | rnd (x : Nibble) (nn : Byte)
  /-- `Dxyn` DRW Vx, Vy, n (R171). -/
  | drw (x y n : Nibble)
  /-- `Ex9E` SKP Vx (R190). -/
  | skp (x : Nibble)
  /-- `ExA1` SKNP Vx (R191). -/
  | sknp (x : Nibble)
  /-- `Fx07` LD Vx, DT (R192). -/
  | ldVxDT (x : Nibble)
  /-- `Fx0A` LD Vx, K (R194). -/
  | ldVxK (x : Nibble)
  /-- `Fx15` LD DT, Vx (R196). -/
  | ldDTVx (x : Nibble)
  /-- `Fx18` LD ST, Vx (R197). -/
  | ldSTVx (x : Nibble)
  /-- `Fx1E` ADD I, Vx (R151). -/
  | addI (x : Nibble)
  /-- `Fx29` LD F, Vx (R152). -/
  | ldF (x : Nibble)
  /-- `Fx33` LD B, Vx (R153). -/
  | ldB (x : Nibble)
  /-- `Fx55` LD [I], Vx (R154). -/
  | storeRegs (x : Nibble)
  /-- `Fx65` LD Vx, [I] (R155). -/
  | loadRegs (x : Nibble)
  deriving DecidableEq, Repr

end Sys2Proof
end

