-- ==== Sys2Proof/WellFormed.lean ====
section
/-! DEFINITION. Well-formedness: every operand fits the field that the format of the instruction gives it
(spec 30_encoding.md R71 to R73).

The constructors of `Instr` carry their operands at the width of the field, and the spec forbids no operand value (every
register index is valid, R20; every `nnn` is legal, R77; every `n`, 0 included, selects DRW, R171), so every `Instr` is
well-formed (`Sys2Proof.Laws.Fits`). The check bites on an operand given as a plain number, which `Operand.fits` refuses
when no field can hold it. -/

namespace Sys2Proof

/-- What an operand field holds (the field table of R71). -/
inductive OperandKind where
  /-- `x` or `y`. -/
  | reg
  /-- `nn`. -/
  | byte
  /-- `nnn`. -/
  | addr
  /-- `n` of Dxyn. -/
  | rows
  deriving DecidableEq, Repr

/-- The width of the field in bits (R71). -/
def OperandKind.width : OperandKind → Nat
  | .reg => 4
  | .byte => 8
  | .addr => 12
  | .rows => 4

/-- An operand as a number, before it is put into a field. -/
structure Operand where
  kind : OperandKind
  value : Nat
  deriving DecidableEq, Repr

/-- The operand can be written in its field: fields are unsigned and unscaled (R73). -/
def Operand.fits (o : Operand) : Bool := decide (o.value < 2 ^ o.kind.width)

/-- The operands of an instruction, in the order of its fields in the word (R72). -/
def Instr.operands : Instr → List Operand
  | .cls | .ret => []
  | .jp nnn | .call nnn | .ldI nnn | .jpV0 nnn => [⟨.addr, nnn.toNat⟩]
  | .seByte x nn | .sneByte x nn | .ldByte x nn | .addByte x nn | .rnd x nn => [⟨.reg, x.toNat⟩, ⟨.byte, nn.toNat⟩]
  | .seReg x y | .sneReg x y | .ldReg x y | .orReg x y | .andReg x y | .xorReg x y | .addReg x y | .subReg x y
  | .shr x y | .subnReg x y | .shl x y => [⟨.reg, x.toNat⟩, ⟨.reg, y.toNat⟩]
  | .drw x y n => [⟨.reg, x.toNat⟩, ⟨.reg, y.toNat⟩, ⟨.rows, n.toNat⟩]
  | .skp x | .sknp x | .ldVxDT x | .ldVxK x | .ldDTVx x | .ldSTVx x | .addI x | .ldF x | .ldB x | .storeRegs x
  | .loadRegs x => [⟨.reg, x.toNat⟩]

/-- Every operand fits its field. -/
def Instr.wellFormed (i : Instr) : Bool := i.operands.all Operand.fits

end Sys2Proof
end

