-- ==== Sys2Proof/Decode.lean ====
section
/-! DEFINITION. The decoder and the encoder, both written from spec 30_encoding.md.

A word is four nibbles (R70). The opcode map of R74 is the list `opcodeMap`, one row per pattern; decoding is a match of
the whole word against its rows (R75), and a word that no row selects is unmatched (R80). Decode reads no state (R84). -/

namespace Sys2Proof

/-! ## Fields and words -/

/-- `w[15:12]` (R71). -/
def opField (w : Word) : Nibble := w.extractLsb' 12 4

/-- `w[11:8]` (R71). -/
def xField (w : Word) : Nibble := w.extractLsb' 8 4

/-- `w[7:4]` (R71). -/
def yField (w : Word) : Nibble := w.extractLsb' 4 4

/-- `w[3:0]` (R71). -/
def nField (w : Word) : Nibble := w.extractLsb' 0 4

/-- `w[7:0]` (R71). -/
def nnField (w : Word) : Byte := w.extractLsb' 0 8

/-- `w[11:0]` (R71). -/
def nnnField (w : Word) : Addr12 := w.extractLsb' 0 12

/-- The word of four nibbles, the first in bits 15..12 (R70). -/
def wordOfNibbles (a b c d : Nibble) : Word := ((a ++ b) ++ c) ++ d

/-- The word whose high byte lies at the lower address (R52, R70). -/
def wordOfBytes (hi lo : Byte) : Word := hi ++ lo

/-- The byte at the lower address, bits 15..8 (R52). -/
def highByte (w : Word) : Byte := w.extractLsb' 8 8

/-- The byte at the higher address, bits 7..0 (R52). -/
def lowByte (w : Word) : Byte := w.extractLsb' 0 8

/-! ## The opcode map -/

/-- One position of an opcode pattern: a hexadecimal digit that must be equal, or a field letter that matches any
value (R12, R75). -/
inductive NibblePat where
  | digit (d : Nibble)
  | any
  deriving DecidableEq, Repr

/-- Whether a nibble fits a position of a pattern (R75). -/
def NibblePat.accepts : NibblePat → Nibble → Bool
  | .digit d, v => decide (v = d)
  | .any, _ => true

/-- A row of the opcode map: the pattern's four positions, the mnemonic of spec/opcode_table.json, and the instruction
that a word of this row selects, with its fields. -/
structure OpcodeRow where
  mnemonic : String
  op : NibblePat
  x : NibblePat
  y : NibblePat
  n : NibblePat
  build : Word → Instr

/-- The row selects the word: all four positions accept (R75). -/
def OpcodeRow.selects (r : OpcodeRow) (w : Word) : Bool :=
  r.op.accepts (opField w) && r.x.accepts (xField w) && r.y.accepts (yField w) && r.n.accepts (nField w)

/-- The rows of R74 for control flow and skips. -/
def opcodeMapFlow : List OpcodeRow :=
  [ ⟨"CLS", .digit 0x0, .digit 0x0, .digit 0xE, .digit 0x0, fun _ => .cls⟩,
    ⟨"RET", .digit 0x0, .digit 0x0, .digit 0xE, .digit 0xE, fun _ => .ret⟩,
    ⟨"JP_nnn", .digit 0x1, .any, .any, .any, fun w => .jp (nnnField w)⟩,
    ⟨"CALL_nnn", .digit 0x2, .any, .any, .any, fun w => .call (nnnField w)⟩,
    ⟨"SE_Vx__nn", .digit 0x3, .any, .any, .any, fun w => .seByte (xField w) (nnField w)⟩,
    ⟨"SNE_Vx__nn", .digit 0x4, .any, .any, .any, fun w => .sneByte (xField w) (nnField w)⟩,
    ⟨"SE_Vx__Vy", .digit 0x5, .any, .any, .digit 0x0, fun w => .seReg (xField w) (yField w)⟩ ]

/-- The rows of R74 for the 6, 7 and 8 families. -/
def opcodeMapAlu : List OpcodeRow :=
  [ ⟨"LD_Vx__nn", .digit 0x6, .any, .any, .any, fun w => .ldByte (xField w) (nnField w)⟩,
    ⟨"ADD_Vx__nn", .digit 0x7, .any, .any, .any, fun w => .addByte (xField w) (nnField w)⟩,
    ⟨"LD_Vx__Vy", .digit 0x8, .any, .any, .digit 0x0, fun w => .ldReg (xField w) (yField w)⟩,
    ⟨"OR_Vx__Vy", .digit 0x8, .any, .any, .digit 0x1, fun w => .orReg (xField w) (yField w)⟩,
    ⟨"AND_Vx__Vy", .digit 0x8, .any, .any, .digit 0x2, fun w => .andReg (xField w) (yField w)⟩,
    ⟨"XOR_Vx__Vy", .digit 0x8, .any, .any, .digit 0x3, fun w => .xorReg (xField w) (yField w)⟩,
    ⟨"ADD_Vx__Vy", .digit 0x8, .any, .any, .digit 0x4, fun w => .addReg (xField w) (yField w)⟩,
    ⟨"SUB_Vx__Vy", .digit 0x8, .any, .any, .digit 0x5, fun w => .subReg (xField w) (yField w)⟩,
    ⟨"SHR_Vx", .digit 0x8, .any, .any, .digit 0x6, fun w => .shr (xField w) (yField w)⟩,
    ⟨"SUBN_Vx__Vy", .digit 0x8, .any, .any, .digit 0x7, fun w => .subnReg (xField w) (yField w)⟩,
    ⟨"SHL_Vx", .digit 0x8, .any, .any, .digit 0xE, fun w => .shl (xField w) (yField w)⟩ ]

/-- The rows of R74 for the 9 to E families. -/
def opcodeMapMid : List OpcodeRow :=
  [ ⟨"SNE_Vx__Vy", .digit 0x9, .any, .any, .digit 0x0, fun w => .sneReg (xField w) (yField w)⟩,
    ⟨"LD_I__nnn", .digit 0xA, .any, .any, .any, fun w => .ldI (nnnField w)⟩,
    ⟨"JP_V0__nnn", .digit 0xB, .any, .any, .any, fun w => .jpV0 (nnnField w)⟩,
    ⟨"RND_Vx__nn", .digit 0xC, .any, .any, .any, fun w => .rnd (xField w) (nnField w)⟩,
    ⟨"DRW_Vx__Vy__n", .digit 0xD, .any, .any, .any, fun w => .drw (xField w) (yField w) (nField w)⟩,
    ⟨"SKP_Vx", .digit 0xE, .any, .digit 0x9, .digit 0xE, fun w => .skp (xField w)⟩,
    ⟨"SKNP_Vx", .digit 0xE, .any, .digit 0xA, .digit 0x1, fun w => .sknp (xField w)⟩ ]

/-- The rows of R74 for the F family. -/
def opcodeMapF : List OpcodeRow :=
  [ ⟨"LD_Vx__DT", .digit 0xF, .any, .digit 0x0, .digit 0x7, fun w => .ldVxDT (xField w)⟩,
    ⟨"LD_Vx__K", .digit 0xF, .any, .digit 0x0, .digit 0xA, fun w => .ldVxK (xField w)⟩,
    ⟨"LD_DT__Vx", .digit 0xF, .any, .digit 0x1, .digit 0x5, fun w => .ldDTVx (xField w)⟩,
    ⟨"LD_ST__Vx", .digit 0xF, .any, .digit 0x1, .digit 0x8, fun w => .ldSTVx (xField w)⟩,
    ⟨"ADD_I__Vx", .digit 0xF, .any, .digit 0x1, .digit 0xE, fun w => .addI (xField w)⟩,
    ⟨"LD_F__Vx", .digit 0xF, .any, .digit 0x2, .digit 0x9, fun w => .ldF (xField w)⟩,
    ⟨"LD_B__Vx", .digit 0xF, .any, .digit 0x3, .digit 0x3, fun w => .ldB (xField w)⟩,
    ⟨"LD__I___Vx", .digit 0xF, .any, .digit 0x5, .digit 0x5, fun w => .storeRegs (xField w)⟩,
    ⟨"LD_Vx___I", .digit 0xF, .any, .digit 0x6, .digit 0x5, fun w => .loadRegs (xField w)⟩ ]

/-- The opcode map of R74: 34 rows, in the table's order. -/
def opcodeMap : List OpcodeRow := opcodeMapFlow ++ opcodeMapAlu ++ opcodeMapMid ++ opcodeMapF

/-! ## The decoder -/

/-- Why a decode is refused. -/
inductive DecodeReject where
  /-- The word matches no row of R74 (R80). -/
  | unmatched (w : Word)
  /-- Fewer than two bytes were given; an instruction is 2 bytes (R70, R81). -/
  | tooShort
  deriving DecidableEq, Repr

/-- The instruction that the first row selecting the word gives (R75, R84). -/
def decodeRows : List OpcodeRow → Word → Except DecodeReject Instr
  | [], w => .error (.unmatched w)
  | r :: rs, w => if r.selects w then .ok (r.build w) else decodeRows rs w

/-- A total function from every word to an instruction of R74 or to Unmatched (R84). -/
def decodeWord (w : Word) : Except DecodeReject Instr := decodeRows opcodeMap w

/-- The instruction at the head of a list of bytes, in memory order, with the bytes after it (R52, R70). -/
def decode : List Byte → Except DecodeReject (Instr × List Byte)
  | hi :: lo :: rest =>
    match decodeWord (wordOfBytes hi lo) with
    | .ok i => .ok (i, rest)
    | .error e => .error e
  | _ => .error .tooShort

/-! ## The encoder -/

/-- The word of format NNN (R72). -/
def encodeNNN (op : Nibble) (nnn : Addr12) : Word := op ++ nnn

/-- The word of format XNN (R72). -/
def encodeXNN (op x : Nibble) (nn : Byte) : Word := (op ++ x) ++ nn

/-- The word of an instruction (R72, R74). -/
def encode : Instr → Word
  | .cls => 0x00E0
  | .ret => 0x00EE
  | .jp nnn => encodeNNN 0x1 nnn
  | .call nnn => encodeNNN 0x2 nnn
  | .seByte x nn => encodeXNN 0x3 x nn
  | .sneByte x nn => encodeXNN 0x4 x nn
  | .seReg x y => wordOfNibbles 0x5 x y 0x0
  | .ldByte x nn => encodeXNN 0x6 x nn
  | .addByte x nn => encodeXNN 0x7 x nn
  | .ldReg x y => wordOfNibbles 0x8 x y 0x0
  | .orReg x y => wordOfNibbles 0x8 x y 0x1
  | .andReg x y => wordOfNibbles 0x8 x y 0x2
  | .xorReg x y => wordOfNibbles 0x8 x y 0x3
  | .addReg x y => wordOfNibbles 0x8 x y 0x4
  | .subReg x y => wordOfNibbles 0x8 x y 0x5
  | .shr x y => wordOfNibbles 0x8 x y 0x6
  | .subnReg x y => wordOfNibbles 0x8 x y 0x7
  | .shl x y => wordOfNibbles 0x8 x y 0xE
  | .sneReg x y => wordOfNibbles 0x9 x y 0x0
  | .ldI nnn => encodeNNN 0xA nnn
  | .jpV0 nnn => encodeNNN 0xB nnn
  | .rnd x nn => encodeXNN 0xC x nn
  | .drw x y n => wordOfNibbles 0xD x y n
  | .skp x => wordOfNibbles 0xE x 0x9 0xE
  | .sknp x => wordOfNibbles 0xE x 0xA 0x1
  | .ldVxDT x => wordOfNibbles 0xF x 0x0 0x7
  | .ldVxK x => wordOfNibbles 0xF x 0x0 0xA
  | .ldDTVx x => wordOfNibbles 0xF x 0x1 0x5
  | .ldSTVx x => wordOfNibbles 0xF x 0x1 0x8
  | .addI x => wordOfNibbles 0xF x 0x1 0xE
  | .ldF x => wordOfNibbles 0xF x 0x2 0x9
  | .ldB x => wordOfNibbles 0xF x 0x3 0x3
  | .storeRegs x => wordOfNibbles 0xF x 0x5 0x5
  | .loadRegs x => wordOfNibbles 0xF x 0x6 0x5

/-- The mnemonic of an instruction's row, as spec/opcode_table.json spells it. -/
def mnemonicOf : Instr → String
  | .cls => "CLS"
  | .ret => "RET"
  | .jp _ => "JP_nnn"
  | .call _ => "CALL_nnn"
  | .seByte _ _ => "SE_Vx__nn"
  | .sneByte _ _ => "SNE_Vx__nn"
  | .seReg _ _ => "SE_Vx__Vy"
  | .ldByte _ _ => "LD_Vx__nn"
  | .addByte _ _ => "ADD_Vx__nn"
  | .ldReg _ _ => "LD_Vx__Vy"
  | .orReg _ _ => "OR_Vx__Vy"
  | .andReg _ _ => "AND_Vx__Vy"
  | .xorReg _ _ => "XOR_Vx__Vy"
  | .addReg _ _ => "ADD_Vx__Vy"
  | .subReg _ _ => "SUB_Vx__Vy"
  | .shr _ _ => "SHR_Vx"
  | .subnReg _ _ => "SUBN_Vx__Vy"
  | .shl _ _ => "SHL_Vx"
  | .sneReg _ _ => "SNE_Vx__Vy"
  | .ldI _ => "LD_I__nnn"
  | .jpV0 _ => "JP_V0__nnn"
  | .rnd _ _ => "RND_Vx__nn"
  | .drw _ _ _ => "DRW_Vx__Vy__n"
  | .skp _ => "SKP_Vx"
  | .sknp _ => "SKNP_Vx"
  | .ldVxDT _ => "LD_Vx__DT"
  | .ldVxK _ => "LD_Vx__K"
  | .ldDTVx _ => "LD_DT__Vx"
  | .ldSTVx _ => "LD_ST__Vx"
  | .addI _ => "ADD_I__Vx"
  | .ldF _ => "LD_F__Vx"
  | .ldB _ => "LD_B__Vx"
  | .storeRegs _ => "LD__I___Vx"
  | .loadRegs _ => "LD_Vx___I"

/-! ## The opcode table's words -/

/-- The bytes, in memory order, of the instruction whose bits are `w`, numbered as spec/opcode_table.json numbers them;
the bits above `nbits` are 0. An instruction is one word, and its high byte lies at the lower address (R52, R70). -/
def bytesOfTableWord (nbits w : Nat) : List Byte :=
  [highByte (BitVec.ofNat 16 (w % 2 ^ nbits)), lowByte (BitVec.ofNat 16 (w % 2 ^ nbits))]

/-- The instruction the decoder reads from those bytes. -/
def decodeTableWord (nbits w : Nat) : Option Instr :=
  match decode (bytesOfTableWord nbits w) with
  | .ok (i, _) => some i
  | .error _ => none

end Sys2Proof
end

