-- ==== Sys2Proof/Config.lean ====
section
/-! DEFINITION. What the implementation fixes: the sizes of spec 00_scope.md R10, and the one free value of the block,
the byte that Cxnn draws.

The parameter FONT of R11 is an argument of the machine's construction (`Sys2Proof.Machine.State.constructed`), with the
default of R26 in Machine/Font.lean. -/

namespace Sys2Proof.Config

/-- MEM_SIZE (R10): addresses 0x000 to 0xFFF. -/
def memSize : Nat := 4096

/-- FONT_SIZE (R10): 16 glyphs of 5 bytes, at FONT_BASE = 0x000. -/
def fontSize : Nat := 80

/-- PROGRAM_BASE (R10): the default load offset and the initial PC. -/
def programBase : Nat := 0x200

/-- STACK_DEPTH (R10). -/
def stackDepth : Nat := 16

/-- FREE VALUE. `RandomByte` (R11, R145; decision D10, `RNG_SEED` open by D20): the byte of the `k`-th draw. It has no
body, so nothing can evaluate it or prove a value of it: whatever generator, seed and state the hardware has, its draws
are some such sequence. A statement that names it holds for every value. See notes/assumptions/4.md. -/
opaque randomByte (k : Nat) : Byte

end Sys2Proof.Config
end

