-- ==== Sys2Proof/Machine/Font.lean ====
section
/-! DEFINITION. The parameter FONT of spec 00_scope.md R11, the 80 glyph bytes that construction and reset write to 0x000
to 0x04F, and its default of 10_state.md R26. -/

namespace Sys2Proof.Machine

/-- A value of the parameter `FONT` (R11): 16 glyphs of 5 bytes, glyph `d` first at index `5 * d` (R25). The machine takes
it as an argument (`State.constructed`), so that every statement holds for every value. -/
abbrev Font := Vector Byte 80

/-- The bytes of R26, digit by digit. PRESUMED, unsafe: they are general knowledge and not the source's
(notes/assumptions/5.md). -/
def fontBytes : List Byte :=
  [0xF0, 0x90, 0x90, 0x90, 0xF0] ++ [0x20, 0x60, 0x20, 0x20, 0x70] ++
  [0xF0, 0x10, 0xF0, 0x80, 0xF0] ++ [0xF0, 0x10, 0xF0, 0x10, 0xF0] ++
  [0x90, 0x90, 0xF0, 0x10, 0x10] ++ [0xF0, 0x80, 0xF0, 0x10, 0xF0] ++
  [0xF0, 0x80, 0xF0, 0x90, 0xF0] ++ [0xF0, 0x10, 0x20, 0x40, 0x40] ++
  [0xF0, 0x90, 0xF0, 0x90, 0xF0] ++ [0xF0, 0x90, 0xF0, 0x10, 0xF0] ++
  [0xF0, 0x90, 0xF0, 0x90, 0x90] ++ [0xE0, 0x90, 0xE0, 0x90, 0xE0] ++
  [0xF0, 0x80, 0x80, 0x80, 0xF0] ++ [0xE0, 0x90, 0x90, 0x90, 0xE0] ++
  [0xF0, 0x80, 0xF0, 0x80, 0xF0] ++ [0xF0, 0x80, 0xF0, 0x80, 0x80]

/-- The default of `FONT` (R11, R26). -/
def fontTable : Font := ⟨fontBytes.toArray, by decide⟩

end Sys2Proof.Machine
end

