-- ==== Sys2Proof/Machine/State.lean ====
section
/-! DEFINITION. The state of the core block, all of spec 10_state.md, as plain data, and its value right after
construction or reset (70_reset_and_hazards.md R260).

Three fields of `State` are no state of the block: the parameter FONT, which no transaction changes (00_scope.md R11), and
the model's own bookkeeping, which 60_exceptions.md R235 allows: what the last transaction responded, and the record of
every error response. -/

namespace Sys2Proof.Machine

/-- `MODE` (R33, R35): the key-wait mode. -/
inductive Mode where
  /-- Encoded as 0. -/
  | running
  /-- Encoded as 1: the last executed instruction was an Fx0A that found no key pressed. -/
  | awaitingKey
  deriving DecidableEq, Repr

/-- The error kinds of 60_exceptions.md R230. -/
inductive ErrorKind where
  /-- Raised by loadProgram (R58). -/
  | capacityError
  /-- Raised by a fetch above 0xFFE (R52) and by Dxyn, Fx33, Fx55, Fx65 (R54). -/
  | memoryBoundsError
  /-- Raised by 2nnn with SP = 16 (R102). -/
  | stackOverflowError
  /-- Raised by 00EE with SP = 0 (R100). -/
  | stackUnderflowError
  /-- Raised by a word that matches no row of the opcode map (R80). -/
  | unknownOpcodeError
  /-- Raised by Ex9E and ExA1 with V[x] above 0x0F (R190, R191). -/
  | keyIndexError
  deriving DecidableEq, Repr

/-- An error response Err(kind, addr, word) (50_host_interface.md R214): `word` is absent for a fetch error, and both
are absent for a CapacityError, which records its kind only (R230). -/
structure ErrorReport where
  kind : ErrorKind
  addr : Option Word
  word : Option Word
  deriving DecidableEq, Repr

/-- The framebuffer `FB` (R31): 32 rows of 64 pixels; the pixel of column `c` is bit `c` of its row
(notes/assumptions/25.md). -/
abbrev Framebuffer := Vector (BitVec 64) 32

/-- The memory image, as the cells that differ from construction, in rising order of address
(`Sys2Proof.Machine.Memory.wf`). -/
abbrev Memory := List Host.Cell

/-- The response of a transaction (50_host_interface.md R210). -/
inductive Response where
  /-- The transactions whose response is "none": construct, tickTimers, setKeys, reset. -/
  | empty
  /-- A step or a loadProgram that succeeds. -/
  | ok
  /-- A step or a loadProgram that raises. -/
  | err (e : ErrorReport)
  /-- consumeDrawFlag: the old DIRTY (R217). -/
  | drawFlag (dirty : Bool)
  /-- snapshotFramebuffer: a copy of FB (R218). -/
  | frame (fb : Framebuffer)
  /-- readStatus: DT, ST, MODE, WAIT_X (R219). -/
  | status (dt st : Byte) (mode : Mode) (waitX : Nibble)
  deriving DecidableEq, Repr

/-- The machine. Every field down to `rng` is state of the block; `font` is the block's parameter, and `response` and
`errors` are the model's own. -/
structure State where
  /-- V0 to VF (R20); V[15] doubles as the flag (R21). -/
  v : Vector Byte 16
  /-- I, the index register (R22). -/
  iReg : Word
  /-- PC, the program counter (R23). -/
  pc : Word
  /-- MEM, the memory image (R24). -/
  mem : Memory
  /-- STACK[0..15] (R27). -/
  stack : Vector Word 16
  /-- SP, the number of occupied slots, 0 to 16 (R27). -/
  sp : Fin 17
  /-- DT, the delay timer (R29). -/
  dt : Byte
  /-- ST, the sound timer (R29). -/
  st : Byte
  /-- KEY, bit k = key k pressed (R30, R35). -/
  keys : BitVec 16
  /-- FB, the framebuffer (R31). -/
  fb : Framebuffer
  /-- DIRTY, the framebuffer's dirty flag (R32). -/
  dirty : Bool
  /-- MODE (R33). -/
  mode : Mode
  /-- WAIT_X (R33). -/
  waitX : Nibble
  /-- The random source (R34): how many bytes were drawn from `Config.randomByte` (notes/assumptions/4.md). -/
  rng : Nat
  /-- The parameter FONT (R11), as the block was built with it: every transaction leaves it (notes/assumptions/35.md). -/
  font : Font
  /-- The model's own: the response of the last transaction (notes/assumptions/2.md). -/
  response : Response
  /-- The model's own: every error response so far, oldest first, never cleared (R235, D24). -/
  errors : List ErrorReport
  deriving DecidableEq, Repr

/-- Faults stop the machine. THERE ARE NONE, so none is raised, which is neither safe nor unsafe: errors are non-fatal to
the core, every one of them leaves a next state, and the step that raised it reports it in its response
(60_exceptions.md R235, R238; notes/assumptions/28.md). -/
inductive Fault where
  deriving DecidableEq, Repr

/-- Refusals of the model. -/
inductive Refusal where
  /-- `exec` answers it for an instruction that has no meaning yet. Every instruction of the opcode table has its meaning,
  so nothing raises it. Safe: a run that ended here would prove nothing. -/
  | notModelled (mnemonic : String)
  deriving DecidableEq, Repr

/-- The state after construction and after reset (R260), for the parameters of R11 as arguments: everything zero, PC =
0x200, MODE Running, and the memory image at its construction contents, so that no cell is listed. `font` is FONT; `seed`
is RNG_SEED, as the place in the free random sequence where the draws begin (notes/assumptions/4.md). The model's own two
fields start empty (notes/assumptions/2.md). -/
def State.constructed (font : Font) (seed : Nat) : State where
  v := Vector.replicate 16 0x00
  iReg := 0x0000
  pc := 0x0200
  mem := []
  stack := Vector.replicate 16 0x0000
  sp := 0
  dt := 0x00
  st := 0x00
  keys := 0x0000
  fb := Vector.replicate 32 0
  dirty := false
  mode := .running
  waitX := 0x0
  rng := seed
  font := font
  response := .empty
  errors := []

/-- The machine right after reset (R260), FONT at its default (R26, notes/assumptions/5.md) and the draws at 0
(notes/assumptions/4.md). -/
def State.reset : State := State.constructed fontTable 0

end Sys2Proof.Machine
end

