-- ==== Sys2Proof/Machine/Memory.lean ====
section
/-! DEFINITION. The memory image of spec 20_memory.md: 4096 bytes, one flat space of ordinary read-write memory, whose
unlisted bytes read as construction left them (10_state.md R24 to R26). -/

namespace Sys2Proof.Machine

/-- What the byte at `a` holds after construction and reset (R24, R25): FONT[a] below 80, and 0x00 from there on. This is
what an unlisted address reads as. -/
def initialByte (font : Font) (a : Nat) : Byte := if h : a < 80 then font[a] else 0x00

/-- The byte listed for an address, if one is. -/
def Memory.find : Memory → Nat → Option Byte
  | [], _ => none
  | (k, b) :: m, a => if k = a then some b else Memory.find m a

/-- `MemRead(a, 1)` (R53). -/
def Memory.read (font : Font) (m : Memory) (a : Nat) : Byte := (Memory.find m a).getD (initialByte font a)

/-- The list with the cell `(a, b)` in its place, in front of the first greater address. -/
def Memory.insert : Memory → Nat → Byte → Memory
  | [], a, b => [(a, b)]
  | (k, x) :: m, a, b => if a < k then (a, b) :: (k, x) :: m else if a = k then (a, b) :: m else (k, x) :: Memory.insert m a b

/-- The list without a cell for `a`. -/
def Memory.erase (m : Memory) (a : Nat) : Memory := m.filter fun c => decide (c.1 ≠ a)

/-- `MemWrite(a, 1, b)` (R53), defined for 0 <= a <= 0xFFF; at any other address the access is never carried out (R54). A
byte that becomes what an unlisted address reads as is listed no more. -/
def Memory.write (font : Font) (m : Memory) (a : Nat) (b : Byte) : Memory :=
  if a < Config.memSize then (if b = initialByte font a then Memory.erase m a else Memory.insert m a b) else m

/-- The bytes of a list, written from `a` upward. -/
def Memory.writeBytes (font : Font) : Memory → Nat → List Byte → Memory
  | m, _, [] => m
  | m, a, b :: bs => Memory.writeBytes font (Memory.write font m a b) (a + 1) bs

/-- The `n` bytes from `a` upward. -/
def Memory.readBytes (font : Font) (m : Memory) (a : Nat) : Nat → List Byte
  | 0 => []
  | n + 1 => Memory.read font m a :: Memory.readBytes font m (a + 1) n

/-- `Fetch(pc)` without its bounds check (R52): big-endian, `MEM[pc]` in bits 15..8. -/
def Memory.fetchWord (font : Font) (m : Memory) (pc : Nat) : Word :=
  wordOfBytes (Memory.read font m pc) (Memory.read font m (pc + 1))

/-- The cells from address `lo` on are in canonical form: addresses strictly rising and inside the memory image, no cell
equal to what its address reads as unlisted. -/
def Memory.wfFrom (font : Font) (lo : Nat) : Memory → Bool
  | [] => true
  | (a, b) :: m =>
    decide (lo ≤ a) && decide (a < Config.memSize) && decide (b ≠ initialByte font a) && Memory.wfFrom font (a + 1) m

/-- The memory image is in its one canonical form, so that equal memories are equal data. -/
def Memory.wf (font : Font) (m : Memory) : Bool := Memory.wfFrom font 0 m

/-- The `n` bytes from `a` upward all lie in 0x000..0xFFF: the range check of R54, in exact integers (D31). -/
def inMemory (a n : Nat) : Bool := decide (a + n ≤ Config.memSize)

end Sys2Proof.Machine
end

