-- ==== Sys2Proof/Machine/Ops.lean ====
section
/-! DEFINITION. The named operations over the state: reading and writing registers, the call stack, the keys, the screen,
the random source; how a step ends; and how an instruction raises an error.

Raising is the block's only form of exception: it transfers no control, saves nothing and changes no mode, and the block
has no return from it (60_exceptions.md R238). -/

namespace Sys2Proof.Machine

/-- What a step answers. -/
abbrev StepOutcome := Host.Outcome State Fault Refusal

/-! ## Registers -/

/-- `V[x]` (R20): every index is valid and no register is hardwired. -/
def State.getV (s : State) (x : Nibble) : Byte := s.v[x.toNat]'x.isLt

/-- `V[x] <- b` (R20). -/
def State.setV (s : State) (x : Nibble) (b : Byte) : State := { s with v := s.v.set x.toNat b x.isLt }

/-- `I <- w` (R22). -/
def State.setI (s : State) (w : Word) : State := { s with iReg := w }

/-- `PC <- w` (R23). -/
def State.setPC (s : State) (w : Word) : State := { s with pc := w }

/-- `DT <- b` (R29). -/
def State.setDT (s : State) (b : Byte) : State := { s with dt := b }

/-- `ST <- b` (R29). -/
def State.setST (s : State) (b : Byte) : State := { s with st := b }

/-- All of V0 to VF. -/
def State.setRegs (s : State) (v : Vector Byte 16) : State := { s with v := v }

/-- All of the memory image. -/
def State.setMem (s : State) (m : Memory) : State := { s with mem := m }

/-- `MemRead(a, 1)` (R53). -/
def State.readByte (s : State) (a : Nat) : Byte := Memory.read s.font s.mem a

/-- The `n` bytes from `a` upward (R53). -/
def State.readBytes (s : State) (a n : Nat) : List Byte := Memory.readBytes s.font s.mem a n

/-- `MemWrite` of each byte of the list, from `a` upward (R53). -/
def State.writeBytes (s : State) (a : Nat) (bs : List Byte) : State := s.setMem (Memory.writeBytes s.font s.mem a bs)

/-- `V[k], V[k+1], ... <-` the bytes of the list (R155). -/
def loadFrom : Vector Byte 16 → Nat → List Byte → Vector Byte 16
  | v, _, [] => v
  | v, k, b :: bs => loadFrom (v.setIfInBounds k b) (k + 1) bs

/-! ## Skips -/

/-- `if c then PC <- PC + 2` (40_flow.md, conventions). -/
def State.skipIf (s : State) (c : Bool) : State := s.setPC (if c then s.pc + 2 else s.pc)

/-! ## The call stack (R28) -/

/-- `push(w)`: absent when SP = 16, for the caller to raise StackOverflowError. -/
def State.push (s : State) (w : Word) : Option State :=
  if h : s.sp.val < Config.stackDepth then
    some { s with stack := s.stack.set s.sp.val w h, sp := ⟨s.sp.val + 1, Nat.succ_lt_succ h⟩ }
  else none

/-- `pop()`: absent when SP = 0, for the caller to raise StackUnderflowError; else the slot that was on top and the state
with SP one lower. The slot keeps its value. -/
def State.pop (s : State) : Option (Word × State) :=
  if h : s.sp.val = 0 then none
  else
    some (s.stack[s.sp.val - 1]'(Nat.lt_of_lt_of_le (Nat.sub_lt (Nat.pos_of_ne_zero h) Nat.one_pos) (Nat.le_of_lt_succ s.sp.isLt)),
      { s with sp := ⟨s.sp.val - 1, Nat.lt_of_le_of_lt (Nat.sub_le _ _) s.sp.isLt⟩ })

/-! ## Keys -/

/-- `KEY[k] == 1` (R30). -/
def keyPressed (keys : BitVec 16) (k : Nat) : Bool := keys.getLsbD k

/-- `min { k | KEY[k] == 1 }` (R194), absent when no key is pressed. -/
def lowestPressed (keys : BitVec 16) : Option Nat := (List.range 16).find? (keyPressed keys)

/-- Fx0A with no key pressed (R194): PC is rolled back by 2, MODE <- AwaitingKey, WAIT_X <- x. -/
def State.awaitKey (s : State) (x : Nibble) : State := { s with pc := s.pc - 2, mode := .awaitingKey, waitX := x }

/-! ## The random source -/

/-- `draw RandomByte` (R145): the free byte of this draw, and the state after it. -/
def State.drawByte (s : State) : Byte × State := (Config.randomByte s.rng, { s with rng := s.rng + 1 })

/-! ## The framebuffer -/

/-- `FB[row][col]` (R31). -/
def pixel (fb : Framebuffer) (row : Fin 32) (col : Fin 64) : Bool := fb[row.val].getLsbD col.val

/-- `FB[row][col] <- FB[row][col] ^ bit` (R171). -/
def xorPixel (fb : Framebuffer) (row : Fin 32) (col : Fin 64) (bit : Bool) : Framebuffer :=
  fb.set row.val (fb[row.val] ^^^ ((if bit then 1#64 else 0#64) <<< col.val)) row.isLt

/-- The framebuffer with every pixel off (R170). -/
def blankScreen : Framebuffer := Vector.replicate 32 0

/-- FB <- fb and DIRTY <- 1: what 00E0 and Dxyn do to the screen (R32). -/
def State.display (s : State) (fb : Framebuffer) : State := { s with fb := fb, dirty := true }

/-- `sprite_bit(r, c)` is bit (7 - c) of sprite byte r (R172). PRESUMED, unsafe: notes/assumptions/6.md. -/
def spriteBit (b : Byte) (c : Nat) : Bool := b.getLsbD (7 - c)

/-- `(vy + r) mod 32` (R174). -/
def rowAt (vy r : Nat) : Fin 32 := ⟨(vy + r) % 32, Nat.mod_lt _ (by decide)⟩

/-- `(vx + c) mod 64` (R174). -/
def colAt (vx c : Nat) : Fin 64 := ⟨(vx + c) % 64, Nat.mod_lt _ (by decide)⟩

/-- One pass of the loop of R171: the screen and the collision so far, and sprite bit `c` of row byte `b`. -/
def drawBit (vx : Nat) (row : Fin 32) (b : Byte) (acc : Framebuffer × Bool) (c : Nat) : Framebuffer × Bool :=
  (xorPixel acc.1 row (colAt vx c) (spriteBit b c), acc.2 || (spriteBit b c && pixel acc.1 row (colAt vx c)))

/-- The columns 0 to 7 of one sprite row (R171). -/
def drawRow (vx : Nat) (row : Fin 32) (b : Byte) (acc : Framebuffer × Bool) : Framebuffer × Bool :=
  (List.range 8).foldl (drawBit vx row b) acc

/-- The sprite rows from row `r` on (R171). -/
def drawRows (vx vy : Nat) : Nat → List Byte → Framebuffer × Bool → Framebuffer × Bool
  | _, [], acc => acc
  | r, b :: bs, acc => drawRows vx vy (r + 1) bs (drawRow vx (rowAt vy r) b acc)

/-- The XOR blitter (R171, R173): the screen after the sprite is drawn at column `vx`, row `vy`, and the collision bit. -/
def drawSprite (fb : Framebuffer) (vx vy : Nat) (bytes : List Byte) : Framebuffer × Bool :=
  drawRows vx vy 0 bytes (fb, false)

/-! ## How a transaction ends -/

/-- The numeric code of an error kind in a response (R230, D6). -/
def errorCode : ErrorKind → Nat
  | .capacityError => 1
  | .memoryBoundsError => 2
  | .stackOverflowError => 3
  | .stackUnderflowError => 4
  | .unknownOpcodeError => 5
  | .keyIndexError => 6

/-- The encoding of MODE as one bit (R35, D14). -/
def modeBit : Mode → BitVec 1
  | .running => 0
  | .awaitingKey => 1

/-- The step returns Ok (R213). -/
def State.complete (s : State) : State := { s with response := .ok }

/-- A transaction's response is an error: it is the response, and it joins the record (R214, R235). Nothing of the block
changes. -/
def State.report (s : State) (e : ErrorReport) : State := { s with response := .err e, errors := s.errors ++ [e] }

/-- `raise E(addr = A, word = w)` in the execute phase of the instruction `i` (R14, R234): nothing the instruction would
write is committed. PC is A + 2 in that phase (R212), and `w` is the word of `i`. -/
def State.raise (s : State) (kind : ErrorKind) (i : Instr) : State := s.report ⟨kind, some (s.pc - 2), some (encode i)⟩

/-! ## The step driver (R212) -/

/-- The fetch check: `A + 1 > 0xFFF` is false (R52, D4). -/
def State.canFetch (s : State) : Bool := inMemory s.pc.toNat 2

/-- `w = MEM[A] || MEM[A + 1]`. -/
def State.fetched (s : State) : Word := Memory.fetchWord s.font s.mem s.pc.toNat

/-- The driver advance: PC <- A + 2 and MODE <- Running, committed before execute. -/
def State.advance (s : State) : State := { s with pc := s.pc + 2, mode := .running }

/-- Err(MemoryBoundsError, addr = A, word = none): nothing changes. -/
def State.fetchError (s : State) : State := s.report ⟨.memoryBoundsError, some s.pc, none⟩

/-- UnknownOpcodeError(addr = A, word = w) after the driver advance (R213, R232). -/
def State.unknownOpcode (s : State) (w : Word) : State := s.report ⟨.unknownOpcodeError, some (s.pc - 2), some w⟩

end Sys2Proof.Machine
end

