-- ==== Sys2Proof/Machine/Flags.lean ====
section
/-! DEFINITION. The results and flags of the ALU (spec 41_alu.md R126 to R130, R140): every flag the block computes, as
the byte that goes to VF. -/

namespace Sys2Proof.Machine

/-- `cond ? 1 : 0`. -/
def flagByte (c : Bool) : Byte := if c then 1 else 0

/-- A result and the flag byte that goes with it. -/
structure AluResult where
  flag : Byte
  value : Byte
  deriving DecidableEq, Repr

/-- 8xy4 (R126): the exact sum, its carry out of bit 7, and its value mod 256. -/
def aluAdd (a b : Byte) : AluResult := ⟨flagByte (decide (a.toNat + b.toNat > 255)), BitVec.ofNat 8 (a.toNat + b.toNat)⟩

/-- 8xy5 and 8xy7 (R127, R129): minuend `a`, subtrahend `b`; the flag is 1 when `a` is STRICTLY greater, so 0 on equality
(notes/assumptions/30.md), and the value is the exact difference mod 256. -/
def aluSub (a b : Byte) : AluResult :=
  ⟨flagByte (decide (a.toNat > b.toNat)), BitVec.ofInt 8 ((a.toNat : Int) - (b.toNat : Int))⟩

/-- 8xy6 (R128): a logical shift right by one; the flag is the old bit 0. -/
def aluShr (a : Byte) : AluResult := ⟨a &&& 0x01, a >>> 1⟩

/-- 8xyE (R130): a shift left by one, mod 256; the flag is the old bit 7. -/
def aluShl (a : Byte) : AluResult := ⟨(a >>> 7) &&& 0x01, a <<< 1⟩

/-- `V[15] <- flag ; V[x] <- value`: two writes in the order written, so that the result overwrites the flag when
x = F (00_scope.md R15, D2; R141). -/
def State.setFlagged (s : State) (x : Nibble) (r : AluResult) : State := (s.setV 15 r.flag).setV x r.value

end Sys2Proof.Machine
end

