-- ==== Sys2Proof/Machine/Operands.lean ====
section
/-! DEFINITION. The operand forms: the registers an instruction names, and the block's one addressing mode for data,
register-indirect through I with an offset counted by the instruction (spec 42_index_memory.md R159). Immediates are the
fields themselves (30_encoding.md R73), `zext12` where one goes to PC or I. -/

namespace Sys2Proof.Machine

/-- The effective address of the byte at offset `k` is `I + k`, exact and never wrapped (R159); this is `I`. -/
def State.base (s : State) : Nat := s.iReg.toNat

/-- The `n` bytes from I upward lie in memory (R54); an empty range always does (R171, R175). -/
def State.rangeOk (s : State) (n : Nat) : Bool := decide (n = 0) || inMemory s.base n

/-- `V0..Vx`, the registers that Fx55 stores (R154). -/
def State.regsUpTo (s : State) (x : Nibble) : List Byte := s.v.toList.take (x.toNat + 1)

/-- The `n` bytes at I..I+n-1. -/
def State.bytesAtI (s : State) (n : Nat) : List Byte := s.readBytes s.base n

/-- The decimal digits of a byte, hundreds first (R153). -/
def decimalDigits (b : Byte) : List Byte :=
  [BitVec.ofNat 8 (b.toNat / 100), BitVec.ofNat 8 (b.toNat / 10 % 10), BitVec.ofNat 8 (b.toNat % 10)]

/-- The key index in `V[x]`, absent when it is above 0x0F (R190). -/
def State.keyIndex (s : State) (x : Nibble) : Option Nat :=
  if (s.getV x).toNat > 0x0F then none else some (s.getV x).toNat

end Sys2Proof.Machine
end

