-- ==== Sys2Proof/Machine/Alu.lean ====
section
/-! DEFINITION. Register loads and the ALU (spec 41_alu.md). No instruction here raises an error, touches memory or
changes PC. -/

namespace Sys2Proof.Machine

/-- `6xnn` LD Vx, nn (R120). -/
def execLdByte (x : Nibble) (nn : Byte) (s : State) : StepOutcome := .next (s.setV x nn).complete

/-- `7xnn` ADD Vx, nn (R121): mod 256, and VF is not written as a carry. -/
def execAddByte (x : Nibble) (nn : Byte) (s : State) : StepOutcome :=
  .next (s.setV x (BitVec.ofNat 8 ((s.getV x).toNat + nn.toNat))).complete

/-- `8xy0` LD Vx, Vy (R122). -/
def execLdReg (x y : Nibble) (s : State) : StepOutcome := .next (s.setV x (s.getV y)).complete

/-- `8xy1` OR Vx, Vy (R123): VF is not reset (D15). -/
def execOrReg (x y : Nibble) (s : State) : StepOutcome := .next (s.setV x (s.getV x ||| s.getV y)).complete

/-- `8xy2` AND Vx, Vy (R124). -/
def execAndReg (x y : Nibble) (s : State) : StepOutcome := .next (s.setV x (s.getV x &&& s.getV y)).complete

/-- `8xy3` XOR Vx, Vy (R125). -/
def execXorReg (x y : Nibble) (s : State) : StepOutcome := .next (s.setV x (s.getV x ^^^ s.getV y)).complete

/-- `8xy4` ADD Vx, Vy (R126, R141). -/
def execAddReg (x y : Nibble) (s : State) : StepOutcome := .next (s.setFlagged x (aluAdd (s.getV x) (s.getV y))).complete

/-- `8xy5` SUB Vx, Vy (R127, R141): Vx - Vy. -/
def execSubReg (x y : Nibble) (s : State) : StepOutcome := .next (s.setFlagged x (aluSub (s.getV x) (s.getV y))).complete

/-- `8xy6` SHR Vx (R128, R141): the source is Vx (D15); `y` is decoded and not used (R76). -/
def execShr (x _y : Nibble) (s : State) : StepOutcome := .next (s.setFlagged x (aluShr (s.getV x))).complete

/-- `8xy7` SUBN Vx, Vy (R129, R141): Vy - Vx. -/
def execSubnReg (x y : Nibble) (s : State) : StepOutcome := .next (s.setFlagged x (aluSub (s.getV y) (s.getV x))).complete

/-- `8xyE` SHL Vx (R130, R141): the source is Vx (D15); `y` is decoded and not used (R76). -/
def execShl (x _y : Nibble) (s : State) : StepOutcome := .next (s.setFlagged x (aluShl (s.getV x))).complete

/-- `Cxnn` RND Vx, nn (R131, R145): draws exactly one byte, the free value of this draw, and masks it. -/
def execRnd (x : Nibble) (nn : Byte) (s : State) : StepOutcome :=
  .next (s.drawByte.2.setV x (s.drawByte.1 &&& nn)).complete

end Sys2Proof.Machine
end

