-- ==== Sys2Proof/Machine/Display.lean ====
section
/-! DEFINITION. The framebuffer controller and the sprite blitter (spec 43_display.md). -/

namespace Sys2Proof.Machine

/-- `00E0` CLS (R170): DIRTY is set even when no pixel changes (D26). -/
def execCls (s : State) : StepOutcome := .next (s.display blankScreen).complete

/-- What Dxyn computes (R171): the screen after the draw and the collision bit, with the origin of the old Vx and Vy
(R176, D2) and the `n` sprite bytes at I. -/
def State.drawn (s : State) (x y n : Nibble) : Framebuffer × Bool :=
  drawSprite s.fb (s.getV x).toNat (s.getV y).toNat (s.bytesAtI n.toNat)

/-- `Dxyn` DRW Vx, Vy, n (R171): with n = 0 no byte is read and no range is checked (R175, D13). -/
def execDrw (x y n : Nibble) (s : State) : StepOutcome :=
  if s.rangeOk n.toNat then .next ((s.display (s.drawn x y n).1).setV 15 (flagByte (s.drawn x y n).2)).complete
  else .next (s.raise .memoryBoundsError (.drw x y n))

end Sys2Proof.Machine
end

