-- ==== Sys2Proof/Machine/Flow.lean ====
section
/-! DEFINITION. Control flow: returns, jumps, calls and skips (spec 40_flow.md). When the execute phase begins PC = A + 2,
and a skip adds 2 to that. No target is checked here; the next fetch finds one that cannot be fetched (D21). -/

namespace Sys2Proof.Machine

/-- `00EE` RET (R100). -/
def execRet (s : State) : StepOutcome :=
  match s.pop with
  | none => .next (s.raise .stackUnderflowError .ret)
  | some (target, t) => .next (t.setPC target).complete

/-- `1nnn` JP nnn (R101). -/
def execJp (nnn : Addr12) (s : State) : StepOutcome := .next (s.setPC (zext12 nnn)).complete

/-- `2nnn` CALL nnn (R102): pushes PC = A + 2, the return address. -/
def execCall (nnn : Addr12) (s : State) : StepOutcome :=
  match s.push s.pc with
  | none => .next (s.raise .stackOverflowError (.call nnn))
  | some t => .next (t.setPC (zext12 nnn)).complete

/-- `3xnn` SE Vx, nn (R103). -/
def execSeByte (x : Nibble) (nn : Byte) (s : State) : StepOutcome := .next (s.skipIf (decide (s.getV x = nn))).complete

/-- `4xnn` SNE Vx, nn (R104). -/
def execSneByte (x : Nibble) (nn : Byte) (s : State) : StepOutcome := .next (s.skipIf (decide (s.getV x ≠ nn))).complete

/-- `5xy0` SE Vx, Vy (R105). -/
def execSeReg (x y : Nibble) (s : State) : StepOutcome := .next (s.skipIf (decide (s.getV x = s.getV y))).complete

/-- `9xy0` SNE Vx, Vy (R106). -/
def execSneReg (x y : Nibble) (s : State) : StepOutcome := .next (s.skipIf (decide (s.getV x ≠ s.getV y))).complete

/-- `Bnnn` JP V0, nnn (R107): the exact sum, at most 0x10FE, unreduced. -/
def execJpV0 (nnn : Addr12) (s : State) : StepOutcome := .next (s.setPC (zext8 (s.getV 0) + zext12 nnn)).complete

end Sys2Proof.Machine
end

