-- ==== Sys2Proof/Machine/IndexMemory.lean ====
section
/-! DEFINITION. The index register, the font address, BCD and the block transfers (spec 42_index_memory.md). Every memory
range is checked before any write (20_memory.md R54), and none of these accesses changes I (R159). -/

namespace Sys2Proof.Machine

/-- `Annn` LD I, nnn (R150). -/
def execLdI (nnn : Addr12) (s : State) : StepOutcome := .next (s.setI (zext12 nnn)).complete

/-- `Fx1E` ADD I, Vx (R151): mod 65536, and VF is not written. -/
def execAddI (x : Nibble) (s : State) : StepOutcome :=
  .next (s.setI (BitVec.ofNat 16 (s.iReg.toNat + (s.getV x).toNat))).complete

/-- `Fx29` LD F, Vx (R152): Vx * 5, unmasked and without an error for Vx above 0x0F (D12). -/
def execLdF (x : Nibble) (s : State) : StepOutcome := .next (s.setI (BitVec.ofNat 16 ((s.getV x).toNat * 5))).complete

/-- `Fx33` LD B, Vx (R153). -/
def execLdB (x : Nibble) (s : State) : StepOutcome :=
  if s.rangeOk 3 then .next (s.writeBytes s.base (decimalDigits (s.getV x))).complete
  else .next (s.raise .memoryBoundsError (.ldB x))

/-- `Fx55` LD [I], Vx (R154). -/
def execStoreRegs (x : Nibble) (s : State) : StepOutcome :=
  if s.rangeOk (x.toNat + 1) then .next (s.writeBytes s.base (s.regsUpTo x)).complete
  else .next (s.raise .memoryBoundsError (.storeRegs x))

/-- `Fx65` LD Vx, [I] (R155). -/
def execLoadRegs (x : Nibble) (s : State) : StepOutcome :=
  if s.rangeOk (x.toNat + 1) then .next (s.setRegs (loadFrom s.v 0 (s.bytesAtI (x.toNat + 1)))).complete
  else .next (s.raise .memoryBoundsError (.loadRegs x))

end Sys2Proof.Machine
end

