-- ==== Sys2Proof/Machine/TimersKeys.lean ====
section
/-! DEFINITION. The keys and the timers (spec 44_timers_keys.md). When the execute phase begins MODE = Running, set by the
driver (50_host_interface.md R212). -/

namespace Sys2Proof.Machine

/-- `Ex9E` SKP Vx (R190): a key index above 0x0F raises KeyIndexError (D11). -/
def execSkp (x : Nibble) (s : State) : StepOutcome :=
  match s.keyIndex x with
  | none => .next (s.raise .keyIndexError (.skp x))
  | some k => .next (s.skipIf (keyPressed s.keys k)).complete

/-- `ExA1` SKNP Vx (R191). -/
def execSknp (x : Nibble) (s : State) : StepOutcome :=
  match s.keyIndex x with
  | none => .next (s.raise .keyIndexError (.sknp x))
  | some k => .next (s.skipIf (!keyPressed s.keys k)).complete

/-- `Fx07` LD Vx, DT (R192). -/
def execLdVxDT (x : Nibble) (s : State) : StepOutcome := .next (s.setV x s.dt).complete

/-- `Fx0A` LD Vx, K (R194, R195): the lowest pressed key, or the key wait. A waiting step is a complete step. -/
def execLdVxK (x : Nibble) (s : State) : StepOutcome :=
  match lowestPressed s.keys with
  | some k => .next (s.setV x (BitVec.ofNat 8 k)).complete
  | none => .next (s.awaitKey x).complete

/-- `Fx15` LD DT, Vx (R196). -/
def execLdDTVx (x : Nibble) (s : State) : StepOutcome := .next (s.setDT (s.getV x)).complete

/-- `Fx18` LD ST, Vx (R197). -/
def execLdSTVx (x : Nibble) (s : State) : StepOutcome := .next (s.setST (s.getV x)).complete

end Sys2Proof.Machine
end

