-- ==== Sys2Proof/Machine/Step.lean ====
section
/-! DEFINITION. The step driver (spec 50_host_interface.md R212), and where the next instruction is fetched from. -/

namespace Sys2Proof.Machine

/-- One fetch-decode-execute cycle (R211, R212): the fetch check first, then decode, then the instruction's own check
(60_exceptions.md R237). -/
def step (s : State) : Host.Outcome State Fault Refusal :=
  if s.canFetch then
    match decodeWord s.fetched with
    | .ok i => exec i s.advance
    | .error _ => .next (s.advance.unknownOpcode s.fetched)
  else .next s.fetchError

/-- `s` with the instruction of the opcode table's word `w` stored at PC, where `step` fetches its next instruction
(notes/assumptions/26.md). -/
def State.withFetchWord (s : State) (nbits w : Nat) : State :=
  s.writeBytes s.pc.toNat (bytesOfTableWord nbits w)

end Sys2Proof.Machine
end

