-- ==== Sys2Proof/Machine/Transactions.lean ====
section
/-! DEFINITION. The block's interface: the nine transactions of spec 50_host_interface.md R210, each one atomic transition,
each accepted in every state (R220). What a transaction responds is in the field `response` of the state it leaves. -/

namespace Sys2Proof.Machine

/-- A request of the host (R210). -/
inductive Transaction where
  | construct
  /-- The offset is 0x200 unless the request gives another (R58). -/
  | loadProgram (bytes : List Byte) (offset : Nat := 0x200)
  | step
  | tickTimers
  /-- Bit k = key k pressed. -/
  | setKeys (k : BitVec 16)
  | consumeDrawFlag
  | snapshotFramebuffer
  | reset
  | readStatus
  deriving DecidableEq, Repr

/-- The response of a transaction that raises no error. -/
def State.respond (s : State) (r : Response) : State := { s with response := r }

/-- `construct()` and `reset()`: exactly the state of R260 for the block's own FONT, whatever the state before (R261). The
draws go on where they were, so that the bytes drawn after a reset stay free (R261, D20; notes/assumptions/4.md), and the
model's record of errors is never cleared (R235). -/
def State.reinitialize (s : State) : State := { State.constructed s.font s.rng with errors := s.errors }

/-- `construct()` (R260). -/
def hostConstruct (s : State) : State := s.reinitialize

/-- `reset()` (R261). -/
def hostReset (s : State) : State := s.reinitialize

/-- `loadProgram(bytes, offset)` (R58): `len > 4096 - offset` in exact integers is CapacityError, with nothing changed
(R236). -/
def hostLoadProgram (bytes : List Byte) (offset : Nat) (s : State) : State :=
  if inMemory offset bytes.length then (s.writeBytes offset bytes).respond .ok
  else s.report ⟨.capacityError, none, none⟩

/-- `if t > 0 then t <- t - 1` (R240). -/
def countDown (t : Byte) : Byte := if t.toNat > 0 then t - 1 else t

/-- `tickTimers()` (R240). -/
def hostTickTimers (s : State) : State := ((s.setDT (countDown s.dt)).setST (countDown s.st)).respond .empty

/-- `setKeys(k)` (R216): the whole vector is replaced. -/
def hostSetKeys (k : BitVec 16) (s : State) : State := { s with keys := k, response := .empty }

/-- `consumeDrawFlag()` (R217): returns DIRTY and clears it. -/
def hostConsumeDrawFlag (s : State) : State := { s with dirty := false, response := .drawFlag s.dirty }

/-- `snapshotFramebuffer()` (R218): writes nothing. -/
def hostSnapshotFramebuffer (s : State) : State := s.respond (.frame s.fb)

/-- `readStatus()` (R219): writes nothing. -/
def hostReadStatus (s : State) : State := s.respond (.status s.dt s.st s.mode s.waitX)

/-- One transaction (R210). -/
def transact (t : Transaction) (s : State) : StepOutcome :=
  match t with
  | .construct => .next (hostConstruct s)
  | .loadProgram bytes offset => .next (hostLoadProgram bytes offset s)
  | .step => step s
  | .tickTimers => .next (hostTickTimers s)
  | .setKeys k => .next (hostSetKeys k s)
  | .consumeDrawFlag => .next (hostConsumeDrawFlag s)
  | .snapshotFramebuffer => .next (hostSnapshotFramebuffer s)
  | .reset => .next (hostReset s)
  | .readStatus => .next (hostReadStatus s)

/-- A run begins with construct or reset (R222). -/
def beginsRun : List Transaction → Bool
  | .construct :: _ | .reset :: _ => true
  | _ => false

/-- What a run observes (R222, D30): the state after its last transaction, and the response of every transaction, first
one first. -/
structure Observation where
  final : State
  responses : List Response
  deriving DecidableEq, Repr

/-- A finite sequence of transactions, one after another, and its observation (R222). -/
def transactAll : List Transaction → State → Host.Outcome Observation Fault Refusal
  | [], s => .next ⟨s, []⟩
  | tr :: trs, s =>
    match transact tr s with
    | .next t =>
      match transactAll trs t with
      | .next o => .next ⟨o.final, t.response :: o.responses⟩
      | .fault f => .fault f
      | .refused r => .refused r
    | .fault f => .fault f
    | .refused r => .refused r

end Sys2Proof.Machine
end

