-- ==== Sys2Proof/Safety.lean ====
section
/-! DEFINITION. The terms that statements use: the block's own state, the error table of spec 60_exceptions.md R230, the
pixels a sprite reaches, the invariants of 10_state.md R37, and the states that a run reaches. They are written from the
spec's tables, apart from the meanings. -/

namespace Sys2Proof.Machine

/-- The state of the block alone: the model's own two fields blanked (60_exceptions.md R235). Two states with the same
block differ at most in what was responded. -/
def State.block (s : State) : State := { s with response := .empty, errors := [] }

/-- The instruction's own check (R237), as the table of R230 lists the causes: the kind of error that the execute phase
of `i` raises in `s`, absent when it raises none. -/
def State.check (s : State) : Instr → Option ErrorKind
  | .ret => if s.sp.val = 0 then some .stackUnderflowError else none
  | .call _ => if s.sp.val = 16 then some .stackOverflowError else none
  | .drw _ _ n => if n.toNat > 0 ∧ s.iReg.toNat + n.toNat - 1 > 0xFFF then some .memoryBoundsError else none
  | .ldB _ => if s.iReg.toNat + 2 > 0xFFF then some .memoryBoundsError else none
  | .storeRegs x => if s.iReg.toNat + x.toNat > 0xFFF then some .memoryBoundsError else none
  | .loadRegs x => if s.iReg.toNat + x.toNat > 0xFFF then some .memoryBoundsError else none
  | .skp x => if (s.getV x).toNat > 0x0F then some .keyIndexError else none
  | .sknp x => if (s.getV x).toNat > 0x0F then some .keyIndexError else none
  | .cls | .jp _ | .seByte _ _ | .sneByte _ _ | .seReg _ _ | .ldByte _ _ | .addByte _ _ | .ldReg _ _ | .orReg _ _
  | .andReg _ _ | .xorReg _ _ | .addReg _ _ | .subReg _ _ | .shr _ _ | .subnReg _ _ | .shl _ _ | .sneReg _ _ | .ldI _
  | .jpV0 _ | .rnd _ _ | .ldVxDT _ | .ldVxK _ | .ldDTVx _ | .ldSTVx _ | .addI _ | .ldF _ => none

/-- Whether an instruction may write register `j` (R21; files 41 to 44): as its destination, as the flag VF, or as one of
the registers V0 to Vx that Fx65 loads. -/
def mayWriteV (j : Nibble) : Instr → Bool
  | .ldByte x _ | .addByte x _ | .ldReg x _ | .orReg x _ | .andReg x _ | .xorReg x _ | .rnd x _ | .ldVxDT x
  | .ldVxK x => decide (j = x)
  | .addReg x _ | .subReg x _ | .shr x _ | .subnReg x _ | .shl x _ => decide (j = x ∨ j = 0xF)
  | .drw _ _ _ => decide (j = 0xF)
  | .loadRegs x => decide (j.toNat ≤ x.toNat)
  | .cls | .ret | .jp _ | .call _ | .seByte _ _ | .sneByte _ _ | .seReg _ _ | .sneReg _ _ | .ldI _ | .jpV0 _ | .skp _
  | .sknp _ | .ldDTVx _ | .ldSTVx _ | .addI _ | .ldF _ | .ldB _ | .storeRegs _ => false

/-- Whether the execute phase of an instruction may write PC: the instructions that the PC row of R35 lists. -/
def mayWritePC : Instr → Bool
  | .ret | .jp _ | .call _ | .seByte _ _ | .sneByte _ _ | .seReg _ _ | .sneReg _ _ | .jpV0 _ | .skp _ | .sknp _
  | .ldVxK _ => true
  | .cls | .ldByte _ _ | .addByte _ _ | .ldReg _ _ | .orReg _ _ | .andReg _ _ | .xorReg _ _ | .addReg _ _ | .subReg _ _
  | .shr _ _ | .subnReg _ _ | .shl _ _ | .ldI _ | .rnd _ _ | .drw _ _ _ | .ldVxDT _ | .ldDTVx _ | .ldSTVx _ | .addI _
  | .ldF _ | .ldB _ | .storeRegs _ | .loadRegs _ => false

/-- A set bit of the sprite that Dxyn draws in `s` lands on the pixel (R171, R172, R174): row `r` below `n`, column `c`
below 8, bit `7 - c` of the byte at I + r is 1, and the pixel is ((Vy + r) mod 32, (Vx + c) mod 64). -/
def State.Lit (s : State) (x y n : Nibble) (row : Fin 32) (col : Fin 64) : Prop :=
  ∃ r c, r < n.toNat ∧ c < 8 ∧ (s.readByte (s.iReg.toNat + r)).getLsbD (7 - c) = true ∧
    row.val = ((s.getV y).toNat + r) % 32 ∧ col.val = ((s.getV x).toNat + c) % 64

/-- The state with PC at the address `p`, so that its next step fetches there (R212). -/
def State.atPC (s : State) (p : Nat) : State := { s with pc := BitVec.ofNat 16 p }

/-- The next fetch reads `b` at the address `a` (20_memory.md R63): the word fetched with PC at `a` has it as its first
byte, where one can be fetched there, and the word fetched with PC one lower has it as its second. -/
def State.FetchReads (s : State) (a : Nat) (b : Byte) : Prop :=
  (a + 1 ≤ 0xFFF → highByte (s.atPC a).fetched = b) ∧ (0 < a → lowByte (s.atPC (a - 1)).fetched = b)

/-- One CALL after another (R109): each pair is the PC that its execute phase finds, A + 2, and its target. -/
def nestCalls : List (Word × Addr12) → State → StepOutcome
  | [], s => .next s
  | (ret, target) :: cs, s =>
    match exec (.call target) { s with pc := ret } with
    | .next t => nestCalls cs t
    | .fault f => .fault f
    | .refused r => .refused r

/-- The PCs that `n` RETs one after another leave, first RET first (R109). -/
def returnPCs : Nat → State → List Word
  | 0, _ => []
  | n + 1, s =>
    match exec .ret s with
    | .next t => t.pc :: returnPCs n t
    | _ => []

/-- No stack slot holds an address above 0x1000: a CALL pushes its own address plus 2 (40_flow.md R102), and the last
word that can be fetched lies at 0xFFE. -/
def State.StackBounded (s : State) : Prop := ∀ (j : Nat) (h : j < 16), (s.stack[j]'h).toNat ≤ 0x1000

/-- The invariants of R37 that `State`'s types do not already hold: the memory is in its canonical form, so it holds 4096
bytes and nothing else; PC is at most 0x10FE; and no stack slot would take PC above that. -/
structure State.Inv (s : State) : Prop where
  memory : Memory.wf s.font s.mem = true
  pc : s.pc.toNat ≤ 0x10FE
  stack : s.StackBounded

/-- The key wait (R37): in MODE AwaitingKey the word at PC can be fetched and is an Fx0A whose x is WAIT_X. -/
def State.WaitsAtKeyWait (s : State) : Prop :=
  s.mode = .awaitingKey → s.canFetch = true ∧ decodeWord s.fetched = .ok (.ldVxK s.waitX)

/-- The error responses among the responses of a run. -/
def errorsOf (rs : List Response) : List ErrorReport :=
  rs.filterMap fun r => match r with
    | .err e => some e
    | _ => none

/-- The states that a run from construction reaches (50_host_interface.md R222), whatever the parameters of 00_scope.md
R11. -/
inductive Reachable : State → Prop where
  | start (font : Font) (seed : Nat) : Reachable (State.constructed font seed)
  | after {s t : State} (tr : Transaction) : Reachable s → transact tr s = .next t → Reachable t

end Sys2Proof.Machine
end

