-- ==== Sys2Proof/Certificates/Slice0/Obligations.lean ====
section
/-! DEFINITION. The statements for the provers: the numbered rules of spec/ that say what an instruction or the machine
does. The docstring of each names the rules it formalises, and the decision of the spec (92_eei_decisions.md) or the log
entry that it rests on, if any. `response` and `errors` are the model's own fields (notes/assumptions/2.md); `State.block`
blanks them. -/

open Sys2Proof Sys2Proof.Machine

/-- R71, R72, R74: words of every family written out by hand from the patterns. -/
def Obligations.TableWordsDecode : Prop :=
  decodeWord 0x00E0 = .ok .cls ∧ decodeWord 0x00EE = .ok .ret ∧ decodeWord 0x1234 = .ok (.jp 0x234) ∧
  decodeWord 0x2300 = .ok (.call 0x300) ∧ decodeWord 0x3310 = .ok (.seByte 0x3 0x10) ∧
  decodeWord 0x4311 = .ok (.sneByte 0x3 0x11) ∧ decodeWord 0x5120 = .ok (.seReg 0x1 0x2) ∧
  decodeWord 0x6A42 = .ok (.ldByte 0xA 0x42) ∧ decodeWord 0x7120 = .ok (.addByte 0x1 0x20) ∧
  decodeWord 0x8124 = .ok (.addReg 0x1 0x2) ∧ decodeWord 0x8476 = .ok (.shr 0x4 0x7) ∧
  decodeWord 0x9120 = .ok (.sneReg 0x1 0x2) ∧ decodeWord 0xA2F0 = .ok (.ldI 0x2F0) ∧
  decodeWord 0xB300 = .ok (.jpV0 0x300) ∧ decodeWord 0xC30F = .ok (.rnd 0x3 0x0F) ∧
  decodeWord 0xD124 = .ok (.drw 0x1 0x2 0x4) ∧ decodeWord 0xE59E = .ok (.skp 0x5) ∧
  decodeWord 0xE5A1 = .ok (.sknp 0x5) ∧ decodeWord 0xF30A = .ok (.ldVxK 0x3) ∧ decodeWord 0xF265 = .ok (.loadRegs 0x2)

/-- R71, R72, R74, R75: no bit of an operand is lost; R52: the high byte is the first of the two. -/
def Obligations.DecodeOfEncodeIsTheInstruction : Prop :=
  ∀ (i : Instr) (rest : List Byte), i.wellFormed = true →
    decodeWord (encode i) = .ok i ∧ decode (highByte (encode i) :: lowByte (encode i) :: rest) = .ok (i, rest)

/-- R71, R74, R75. That every fixed digit must match is decision D27 (notes/assumptions/31.md). That SHR and SHL have one word each per instruction is the model's choice: their constructors carry the y that R76 leaves unused (24.md). -/
def Obligations.EncodeOfDecodeIsTheWord : Prop :=
  ∀ (w : Word) (i : Instr), decodeWord w = .ok i → encode i = w

/-- R80, the table of unmatched words (exact matching of every fixed digit is decision D27, notes/assumptions/31.md). -/
def Obligations.UnmatchedWordsAreTheListedSpaces : Prop :=
  ∀ w : Word,
    (decodeWord w = .error (.unmatched w) ↔
      (opField w = 0x0 ∧ w ≠ 0x00E0 ∧ w ≠ 0x00EE) ∨ (opField w = 0x5 ∧ nField w ≠ 0x0) ∨
      (opField w = 0x8 ∧ nField w ∈ ([0x8, 0x9, 0xA, 0xB, 0xC, 0xD, 0xF] : List Nibble)) ∨
      (opField w = 0x9 ∧ nField w ≠ 0x0) ∨ (opField w = 0xE ∧ nnField w ∉ ([0x9E, 0xA1] : List Byte)) ∨
      (opField w = 0xF ∧ nnField w ∉ ([0x07, 0x0A, 0x15, 0x18, 0x1E, 0x29, 0x33, 0x55, 0x65] : List Byte))) ∧
    (decodeWord w ≠ .error (.unmatched w) → ∃ i, decodeWord w = .ok i)

/-- R75: the patterns are pairwise disjoint. -/
def Obligations.NoWordMatchesTwoRows : Prop :=
  ∀ w : Word, (opcodeMap.filter fun r => r.selects w).length ≤ 1

/-- R212, R213: the driver advance comes before execute. The MODE reset is the spec's decision D14 (notes/assumptions/15.md) and the fetch check D4 (9.md). -/
def Obligations.StepRunsTheDecodedInstruction : Prop :=
  ∀ (s : State) (i : Instr), i.wellFormed = true → s.pc.toNat + 1 ≤ 0xFFF →
    decode [s.readByte s.pc.toNat, s.readByte (s.pc.toNat + 1)] = .ok (i, []) →
    step s = exec i { s with pc := s.pc + 2, mode := .running }

/-- R232. The MODE reset is the spec's decision D14 (notes/assumptions/15.md), the report's address and word are D6 (3.md); response and errors are the model's fields (2.md). -/
def Obligations.UnmatchedWordKeepsOnlyTheAdvance : Prop :=
  ∀ (s : State) (w : Word), s.pc.toNat + 1 ≤ 0xFFF →
    w = wordOfBytes (s.readByte s.pc.toNat) (s.readByte (s.pc.toNat + 1)) →
    (∀ i, decodeWord w ≠ .ok i) →
    step s = .next { s with
      pc := s.pc + 2, mode := .running, response := .err ⟨.unknownOpcodeError, some s.pc, some w⟩,
      errors := s.errors ++ [⟨.unknownOpcodeError, some s.pc, some w⟩] }

/-- R52, R212. That a fetch is checked at all is the spec's decision D4 (notes/assumptions/9.md); response and errors are the model's fields (2.md). -/
def Obligations.FetchOutsideMemoryChangesNothing : Prop :=
  ∀ s : State, s.pc.toNat + 1 > 0xFFF →
    step s = .next { s with
      response := .err ⟨.memoryBoundsError, some s.pc, none⟩,
      errors := s.errors ++ [⟨.memoryBoundsError, some s.pc, none⟩] }

/-- R220, R222, R235. That every transaction is accepted is decision D24 (notes/assumptions/22.md), and that an error is a next state and never a fault is the model's reading (DEDUCED, 28.md). The observation is decision D30; response and errors are the model's fields (2.md), and so is font (35.md). -/
def Obligations.EveryTransactionIsAccepted : Prop :=
  (∀ (tr : Transaction) (s : State), ∃ t, transact tr s = .next t ∧ t.font = s.font) ∧
  (∀ (trs : List Transaction) (s : State), ∃ o, transactAll trs s = .next o ∧ o.responses.length = trs.length ∧
    o.final.errors = s.errors ++ errorsOf o.responses) ∧
  (∀ (trs : List Transaction) (tr : Transaction) (s : State) (o : Observation), transactAll trs s = .next o →
    ∃ t, transact tr o.final = .next t ∧ transactAll (trs ++ [tr]) s = .next ⟨t, o.responses ++ [t.response]⟩) ∧
  (∀ (trs : List Transaction) (s u : State), beginsRun trs = true → s.font = u.font → s.rng = u.rng →
    s.errors = u.errors → transactAll trs s = transactAll trs u)

/-- R230, R231, R234, R237. PC = A + 2 after an error is decision D3 (notes/assumptions/8.md), KeyIndexError D11 (12.md), address and word D6 (3.md). -/
def Obligations.ErrorsAreExactlyTheListedOnes : Prop :=
  ∀ (i : Instr) (s : State), ∃ t, exec i s = .next t ∧
    match s.check i with
    | none => t.response = .ok ∧ t.errors = s.errors
    | some k => t = { s with
        response := .err ⟨k, some (s.pc - 2), some (encode i)⟩,
        errors := s.errors ++ [⟨k, some (s.pc - 2), some (encode i)⟩] }

/-- R234, R238: errors are precise. That PC = A + 2 after an error is decision D3 (notes/assumptions/8.md), the MODE reset D14 (15.md), the address and word in the report D6 (3.md). -/
def Obligations.StepReportsNameAddressAndWord : Prop :=
  ∀ (s t : State) (e : ErrorReport), s.pc.toNat + 1 ≤ 0xFFF → step s = .next t → t.response = .err e →
    e.addr = some s.pc ∧
    e.word = some (wordOfBytes (s.readByte s.pc.toNat) (s.readByte (s.pc.toNat + 1))) ∧
    t.block = { s with pc := s.pc + 2, mode := .running }.block

/-- R101, its encoding included. The self-jump follows from R101 and R212: there the MODE reset is decision D14 (notes/assumptions/15.md) and the fetch check in the premise D4 (9.md). -/
def Obligations.JumpWritesItsTarget : Prop :=
  ∀ (s : State) (nnn : Addr12),
    decodeWord (encodeNNN 0x1 nnn) = .ok (.jp nnn) ∧
    (∃ t, exec (.jp nnn) s = .next t ∧ t.response = .ok ∧ t.block = { s with pc := zext12 nnn }.block) ∧
    (s.pc = zext12 nnn → s.pc.toNat + 1 ≤ 0xFFF →
      wordOfBytes (s.readByte s.pc.toNat) (s.readByte (s.pc.toNat + 1)) = encodeNNN 0x1 nnn →
      ∃ t, step s = .next t ∧ t.block = { s with mode := .running }.block)

/-- R107; that the target is not checked or reduced is decision D21 (notes/assumptions/19.md). response is the model's field (2.md). -/
def Obligations.JumpThroughV0AddsExactly : Prop :=
  ∀ (s : State) (nnn : Addr12), (s.getV 0).toNat + nnn.toNat ≤ 0x10FE ∧
    exec (.jpV0 nnn) s = .next { s with pc := BitVec.ofNat 16 ((s.getV 0).toNat + nnn.toNat), response := .ok }

/-- R102, R28. -/
def Obligations.CallPushesTheReturnAddress : Prop :=
  ∀ (s : State) (nnn : Addr12) (h : s.sp.val < 16),
    exec (.call nnn) s = .next { s with
      stack := s.stack.set s.sp.val s.pc h, sp := ⟨s.sp.val + 1, by omega⟩, pc := zext12 nnn, response := .ok }

/-- R100, R28; that the slot keeps its value is decision D22 (notes/assumptions/20.md). -/
def Obligations.ReturnPopsTheTopSlot : Prop :=
  ∀ (s : State) (_ : 0 < s.sp.val),
    exec .ret s = .next { s with
      pc := s.stack[s.sp.val - 1]'(by omega), sp := ⟨s.sp.val - 1, by omega⟩, response := .ok }

/-- R103, R104; that the target of a skip is not checked is decision D21 (notes/assumptions/19.md). -/
def Obligations.ByteSkipsTestOneRegister : Prop :=
  ∀ (s : State) (x : Nibble) (nn : Byte),
    exec (.seByte x nn) s = .next { s with pc := if s.getV x = nn then s.pc + 2 else s.pc, response := .ok } ∧
    exec (.sneByte x nn) s = .next { s with pc := if s.getV x ≠ nn then s.pc + 2 else s.pc, response := .ok }

/-- R105, R106, their encodings included. -/
def Obligations.RegisterSkipsCompareTwoRegisters : Prop :=
  ∀ (s : State) (x y : Nibble),
    decodeWord (wordOfNibbles 0x5 x y 0x0) = .ok (.seReg x y) ∧ decodeWord (wordOfNibbles 0x9 x y 0x0) = .ok (.sneReg x y) ∧
    (∃ t, exec (.seReg x y) s = .next t ∧ t.response = .ok ∧
      t.block = { s with pc := if s.getV x = s.getV y then s.pc + 2 else s.pc }.block) ∧
    (∃ t, exec (.sneReg x y) s = .next t ∧ t.response = .ok ∧
      t.block = { s with pc := if s.getV x ≠ s.getV y then s.pc + 2 else s.pc }.block)

/-- R109: the RETs pop the pushed addresses in reverse order. -/
def Obligations.ReturnUndoesCall : Prop :=
  ∀ (s t u : State) (nnn : Addr12), s.sp.val < 16 → exec (.call nnn) s = .next t → u.sp = t.sp →
    (∀ (j : Nat) (h : j < 16), j < t.sp.val → u.stack[j] = t.stack[j]) →
    ∃ r, exec .ret u = .next r ∧ r.response = .ok ∧ r.pc = s.pc ∧ r.sp = s.sp ∧
      ∀ (j : Nat) (h : j < 16), j < s.sp.val → r.stack[j] = s.stack[j]

/-- R109, for any number of CALLs that fits. -/
def Obligations.NestedCallsReturnInReverseOrder : Prop :=
  ∀ (cs : List (Word × Addr12)) (s : State), s.sp.val + cs.length ≤ 16 →
    ∃ t, nestCalls cs s = .next t ∧ t.sp.val = s.sp.val + cs.length ∧ returnPCs cs.length t = (cs.map (·.1)).reverse

/-- R120, R122, their encodings included. -/
def Obligations.RegisterLoadsWriteTheirRegister : Prop :=
  ∀ (s : State) (x y : Nibble) (nn : Byte),
    decodeWord (encodeXNN 0x6 x nn) = .ok (.ldByte x nn) ∧ decodeWord (wordOfNibbles 0x8 x y 0x0) = .ok (.ldReg x y) ∧
    (∃ t, exec (.ldByte x nn) s = .next t ∧ t.response = .ok ∧
      t.block = { s with v := s.v.set x.toNat nn x.isLt }.block) ∧
    (∃ t, exec (.ldReg x y) s = .next t ∧ t.response = .ok ∧
      t.block = { s with v := s.v.set x.toNat (s.getV y) x.isLt }.block)

/-- R121, its encoding included. -/
def Obligations.AddByteWrapsAndLeavesTheFlag : Prop :=
  ∀ (s : State) (x : Nibble) (nn : Byte), decodeWord (encodeXNN 0x7 x nn) = .ok (.addByte x nn) ∧
    ∃ t, exec (.addByte x nn) s = .next t ∧ t.response = .ok ∧
      t.block = { s with v := s.v.set x.toNat (BitVec.ofNat 8 (((s.getV x).toNat + nn.toNat) % 256)) x.isLt }.block

/-- R123 to R125; that VF is not reset is decision D15 (notes/assumptions/16.md). response is the model's field (2.md). -/
def Obligations.LogicWritesOnlyItsDestination : Prop :=
  ∀ (s : State) (x y : Nibble),
    exec (.orReg x y) s = .next { s with v := s.v.set x.toNat (s.getV x ||| s.getV y) x.isLt, response := .ok } ∧
    exec (.andReg x y) s = .next { s with v := s.v.set x.toNat (s.getV x &&& s.getV y) x.isLt, response := .ok } ∧
    exec (.xorReg x y) s = .next { s with v := s.v.set x.toNat (s.getV x ^^^ s.getV y) x.isLt, response := .ok }

/-- R126. The order of the two writes where x = F is the spec's decision D2 (notes/assumptions/7.md). -/
def Obligations.AddSetsTheCarryThenTheSum : Prop :=
  ∀ (s : State) (x y : Nibble),
    exec (.addReg x y) s = .next { s with
      v := (s.v.set 15 (if (s.getV x).toNat + (s.getV y).toNat > 255 then 1 else 0)).set x.toNat
        (BitVec.ofNat 8 (((s.getV x).toNat + (s.getV y).toNat) % 256)) x.isLt
      response := .ok }

/-- R127, R129. The strict comparison rests on an unaudited literal of the source (93 row 16, notes/assumptions/30.md); the order of the writes where x = F is decision D2 (7.md). -/
def Obligations.SubtractSetsTheFlagWhenStrictlyGreater : Prop :=
  ∀ (s : State) (x y : Nibble),
    exec (.subReg x y) s = .next { s with
      v := (s.v.set 15 (if (s.getV y).toNat < (s.getV x).toNat then 1 else 0)).set x.toNat (s.getV x - s.getV y) x.isLt
      response := .ok } ∧
    exec (.subnReg x y) s = .next { s with
      v := (s.v.set 15 (if (s.getV x).toNat < (s.getV y).toNat then 1 else 0)).set x.toNat (s.getV y - s.getV x) x.isLt
      response := .ok }

/-- R128, R130. That the source is Vx is decision D15 (notes/assumptions/16.md); the order of the writes where x = F is D2 (7.md). -/
def Obligations.ShiftsMoveOneBitThroughTheFlag : Prop :=
  ∀ (s : State) (x y : Nibble),
    exec (.shr x y) s = .next { s with
      v := (s.v.set 15 (BitVec.ofNat 8 ((s.getV x).toNat % 2))).set x.toNat (BitVec.ofNat 8 ((s.getV x).toNat / 2)) x.isLt
      response := .ok } ∧
    exec (.shl x y) s = .next { s with
      v := (s.v.set 15 (BitVec.ofNat 8 ((s.getV x).toNat / 128))).set x.toNat
        (BitVec.ofNat 8 ((s.getV x).toNat * 2 % 256)) x.isLt
      response := .ok }

/-- R76. -/
def Obligations.ShiftsIgnoreTheirSecondField : Prop :=
  ∀ (s : State) (x y y' : Nibble) (b : Byte),
    decodeWord (wordOfNibbles 0x8 x y 0x6) = .ok (.shr x y) ∧ decodeWord (wordOfNibbles 0x8 x y 0xE) = .ok (.shl x y) ∧
    (∃ t, exec (.shr x y) s = .next t ∧ exec (.shr x y') s = .next t) ∧
    (∃ t, exec (.shl x y) s = .next t ∧ exec (.shl x y') s = .next t) ∧
    (y ≠ x → ∃ t u, exec (.shr x y) s = .next t ∧ exec (.shr x y) (s.setV y b) = .next u ∧
      u.getV x = t.getV x ∧ u.getV 0xF = t.getV 0xF) ∧
    (y ≠ x → ∃ t u, exec (.shl x y) s = .next t ∧ exec (.shl x y) (s.setV y b) = .next u ∧
      u.getV x = t.getV x ∧ u.getV 0xF = t.getV 0xF)

/-- R141, the columns x = F and x = y = F. The order of the writes is the spec's decision D2 (notes/assumptions/7.md). -/
def Obligations.ResultOverwritesTheFlagInVF : Prop :=
  ∀ (s : State) (y : Nibble),
    exec (.addReg 0xF y) s = .next { s with v := s.v.set 15 (s.getV 0xF + s.getV y), response := .ok } ∧
    exec (.subReg 0xF y) s = .next { s with v := s.v.set 15 (s.getV 0xF - s.getV y), response := .ok } ∧
    exec (.shr 0xF y) s = .next { s with v := s.v.set 15 (s.getV 0xF >>> 1), response := .ok } ∧
    exec (.subnReg 0xF y) s = .next { s with v := s.v.set 15 (s.getV y - s.getV 0xF), response := .ok } ∧
    exec (.shl 0xF y) s = .next { s with v := s.v.set 15 (s.getV 0xF <<< 1), response := .ok }

/-- R131, R145: the byte is the free value Config.randomByte (D10, notes/assumptions/4.md), and the statement holds for every value of it. -/
def Obligations.RandomMasksOneDraw : Prop :=
  ∀ (s : State) (x : Nibble) (nn : Byte), ∃ t,
    exec (.rnd x nn) s = .next t ∧ t.getV x &&& ~~~nn = 0 ∧
    t = { s with v := s.v.set x.toNat (Config.randomByte s.rng &&& nn) x.isLt, rng := s.rng + 1, response := .ok }

/-- R150, R151, their encodings included. -/
def Obligations.IndexLoadAndAdd : Prop :=
  ∀ (s : State) (nnn : Addr12) (x : Nibble),
    decodeWord (encodeNNN 0xA nnn) = .ok (.ldI nnn) ∧ decodeWord (wordOfNibbles 0xF x 0x1 0xE) = .ok (.addI x) ∧
    (∃ t, exec (.ldI nnn) s = .next t ∧ t.response = .ok ∧ t.block = { s with iReg := zext12 nnn }.block) ∧
    (∃ t, exec (.addI x) s = .next t ∧ t.response = .ok ∧
      t.block = { s with iReg := BitVec.ofNat 16 ((s.iReg.toNat + (s.getV x).toNat) % 65536) }.block)

/-- R152; for Vx above 0x0F this is the spec's decision D12 (notes/assumptions/13.md). -/
def Obligations.FontAddressIsFiveTimesTheRegister : Prop :=
  ∀ (s : State) (x : Nibble), exec (.ldF x) s = .next { s with iReg := BitVec.ofNat 16 ((s.getV x).toNat * 5), response := .ok }

/-- R153. -/
def Obligations.BcdStoresThreeDigits : Prop :=
  ∀ (s : State) (x : Nibble), s.iReg.toNat + 2 ≤ 0xFFF → ∃ t, exec (.ldB x) s = .next t ∧
    t.readByte s.iReg.toNat = BitVec.ofNat 8 ((s.getV x).toNat / 100) ∧
    t.readByte (s.iReg.toNat + 1) = BitVec.ofNat 8 ((s.getV x).toNat / 10 % 10) ∧
    t.readByte (s.iReg.toNat + 2) = BitVec.ofNat 8 ((s.getV x).toNat % 10) ∧
    (∀ a, a < s.iReg.toNat ∨ s.iReg.toNat + 2 < a → t.readByte a = s.readByte a) ∧
    { t with mem := s.mem } = { s with response := .ok }

/-- R154; that I is unchanged is decision D15 (notes/assumptions/16.md). -/
def Obligations.BlockStoreWritesItsRange : Prop :=
  ∀ (s : State) (x : Nibble), s.iReg.toNat + x.toNat ≤ 0xFFF → ∃ t, exec (.storeRegs x) s = .next t ∧
    (∀ k : Nibble, k.toNat ≤ x.toNat → t.readByte (s.iReg.toNat + k.toNat) = s.getV k) ∧
    (∀ a, a < s.iReg.toNat ∨ s.iReg.toNat + x.toNat < a → t.readByte a = s.readByte a) ∧
    { t with mem := s.mem } = { s with response := .ok }

/-- R155; that I is unchanged is decision D15 (notes/assumptions/16.md). -/
def Obligations.BlockLoadReadsItsRange : Prop :=
  ∀ (s : State) (x : Nibble), s.iReg.toNat + x.toNat ≤ 0xFFF → ∃ t, exec (.loadRegs x) s = .next t ∧
    (∀ k : Nibble, t.getV k =
      if k.toNat ≤ x.toNat then s.readByte (s.iReg.toNat + k.toNat) else s.getV k) ∧
    { t with v := s.v } = { s with response := .ok }

/-- R52, R63, R271: instruction fetch is coherent with data writes, and the word being executed is already fetched. This is the spec's decision D19; the fetch check in the premises is D4 (notes/assumptions/9.md) and the MODE reset D14 (15.md). -/
def Obligations.NextFetchSeesTheStore : Prop :=
  ∀ s t : State,
    (∀ x k : Nibble, s.iReg.toNat + x.toNat ≤ 0xFFF → k.toNat ≤ x.toNat → exec (.storeRegs x) s = .next t →
      t.FetchReads (s.iReg.toNat + k.toNat) (s.getV k)) ∧
    (∀ x : Nibble, s.iReg.toNat + 2 ≤ 0xFFF → exec (.ldB x) s = .next t →
      t.FetchReads s.iReg.toNat (BitVec.ofNat 8 ((s.getV x).toNat / 100)) ∧
      t.FetchReads (s.iReg.toNat + 1) (BitVec.ofNat 8 ((s.getV x).toNat / 10 % 10)) ∧
      t.FetchReads (s.iReg.toNat + 2) (BitVec.ofNat 8 ((s.getV x).toNat % 10))) ∧
    (∀ (bytes : List Byte) (offset : Nat), offset + bytes.length ≤ 4096 →
      transact (.loadProgram bytes offset) s = .next t →
      ∀ (k : Nat) (h : k < bytes.length), t.FetchReads (offset + k) bytes[k]) ∧
    (∀ (x k : Nibble) (i : Instr), s.iReg.toNat + x.toNat ≤ 0xFFF → k.toNat < x.toNat →
      exec (.storeRegs x) s = .next t → decodeWord (wordOfBytes (s.getV k) (s.getV (k + 1))) = .ok i →
      step (t.atPC (s.iReg.toNat + k.toNat)) =
        exec i { t with pc := BitVec.ofNat 16 (s.iReg.toNat + k.toNat + 2), mode := .running }) ∧
    (∀ x : Nibble, s.pc.toNat + 1 ≤ 0xFFF → decodeWord s.fetched = .ok (.storeRegs x) → s.iReg = s.pc →
      s.iReg.toNat + x.toNat ≤ 0xFFF → ∃ u, step s = .next u ∧ u.response = .ok ∧
        ∀ k : Nibble, k.toNat ≤ x.toNat → u.FetchReads (s.pc.toNat + k.toNat) (s.getV k))

/-- R170; DIRTY on a clear that changes nothing is decision D26 (notes/assumptions/18.md). -/
def Obligations.ClearTurnsEveryPixelOff : Prop :=
  ∀ s : State, ∃ t, exec .cls s = .next t ∧ (∀ row col, pixel t.fb row col = false) ∧ t.dirty = true ∧
    { t with fb := s.fb, dirty := s.dirty } = { s with response := .ok }

/-- R171 to R178. The bit order is decision D9 (PRESUMED, notes/assumptions/6.md), n = 0 is D13 (14.md), the origin in VF is D2 (7.md). -/
def Obligations.DrawXorsEveryPixelOfTheSprite : Prop :=
  ∀ (s : State) (x y n : Nibble), n.toNat = 0 ∨ s.iReg.toNat + n.toNat - 1 ≤ 0xFFF → ∃ t, exec (.drw x y n) s = .next t ∧
    (∀ row col, pixel t.fb row col = true ↔ ¬ (pixel s.fb row col = true ↔ s.Lit x y n row col)) ∧
    (t.getV 0xF = 1 ∨ t.getV 0xF = 0) ∧
    (t.getV 0xF = 1 ↔ ∃ row col, s.Lit x y n row col ∧ pixel s.fb row col = true) ∧
    (∀ j : Nibble, j ≠ 0xF → t.getV j = s.getV j) ∧ t.dirty = true ∧
    { t with v := s.v, fb := s.fb, dirty := s.dirty } = { s with response := .ok }

/-- R171, R173; the source's example E5. -/
def Obligations.DrawingTwiceErases : Prop :=
  ∀ (s t : State) (x y n : Nibble), x ≠ 0xF → y ≠ 0xF → exec (.drw x y n) s = .next t → t.response = .ok →
    ∃ u, exec (.drw x y n) t = .next u ∧ (∀ row col, pixel u.fb row col = pixel s.fb row col) ∧
      ((∀ row col, pixel s.fb row col = false) →
        t.getV 0xF = 0 ∧ ((∃ row col, s.Lit x y n row col) → u.getV 0xF = 1))

/-- R190, R191; the check of the index is decision D11 (notes/assumptions/12.md). -/
def Obligations.KeySkipsTestTheNamedKey : Prop :=
  ∀ (s : State) (x : Nibble), (s.getV x).toNat ≤ 0x0F →
    exec (.skp x) s = .next { s with
      pc := if s.keys.getLsbD (s.getV x).toNat = true then s.pc + 2 else s.pc, response := .ok } ∧
    exec (.sknp x) s = .next { s with
      pc := if s.keys.getLsbD (s.getV x).toNat = false then s.pc + 2 else s.pc, response := .ok }

/-- R192, R196, R197, their encodings included. -/
def Obligations.TimerMovesCopyTheByte : Prop :=
  ∀ (s : State) (x : Nibble),
    decodeWord (wordOfNibbles 0xF x 0x0 0x7) = .ok (.ldVxDT x) ∧ decodeWord (wordOfNibbles 0xF x 0x1 0x5) = .ok (.ldDTVx x) ∧
    decodeWord (wordOfNibbles 0xF x 0x1 0x8) = .ok (.ldSTVx x) ∧
    (∃ t, exec (.ldVxDT x) s = .next t ∧ t.response = .ok ∧ t.block = { s with v := s.v.set x.toNat s.dt x.isLt }.block) ∧
    (∃ t, exec (.ldDTVx x) s = .next t ∧ t.response = .ok ∧ t.block = { s with dt := s.getV x }.block) ∧
    (∃ t, exec (.ldSTVx x) s = .next t ∧ t.response = .ok ∧ t.block = { s with st := s.getV x }.block)

/-- R194; MODE, WAIT_X and the level test are decision D14 (notes/assumptions/15.md). -/
def Obligations.KeyWaitTakesTheLowestKeyOrHolds : Prop :=
  ∀ (s : State) (x : Nibble),
    (∀ k : Nibble, s.keys.getLsbD k.toNat = true → (∀ j : Nibble, j.toNat < k.toNat → s.keys.getLsbD j.toNat = false) →
      exec (.ldVxK x) s = .next { s with v := s.v.set x.toNat (k.setWidth 8) x.isLt, response := .ok }) ∧
    (s.keys = 0 → exec (.ldVxK x) s = .next { s with pc := s.pc - 2, mode := .awaitingKey, waitX := x, response := .ok })

/-- R194 (its example, the source's E7); MODE and WAIT_X are decision D14 (notes/assumptions/15.md). -/
def Obligations.KeyWaitHoldsOverEveryStep : Prop :=
  ∀ (n : Nat) (s : State) (x : Nibble), s.pc.toNat + 1 ≤ 0xFFF → s.keys = 0 →
    decodeWord (wordOfBytes (s.readByte s.pc.toNat) (s.readByte (s.pc.toNat + 1))) = .ok (.ldVxK x) →
    ∃ t, Sys2Proof.core.run (n + 1) s = .next t ∧ t.response = .ok ∧
      t.block = { s with mode := .awaitingKey, waitX := x }.block

/-- R65: the only writers of MEM are construction, reset, loadProgram, Fx33 and Fx55 (C3). -/
def Obligations.OnlyBcdAndBlockStoreWriteMemory : Prop :=
  ∀ (i : Instr) (s t : State), (∀ x, i ≠ .ldB x) → (∀ x, i ≠ .storeRegs x) → exec i s = .next t →
    t.mem = s.mem ∧ ∀ a, t.readByte a = s.readByte a

/-- R31, R32: only 00E0 and Dxyn mutate it; only consumeDrawFlag clears DIRTY. -/
def Obligations.OnlyClearAndDrawTouchTheScreen : Prop :=
  ∀ (i : Instr) (s t : State), exec i s = .next t →
    (i ≠ .cls → (∀ x y n, i ≠ .drw x y n) → t.fb = s.fb ∧ t.dirty = s.dirty) ∧ (s.dirty = true → t.dirty = true)

/-- R27: only 2nnn and 00EE read or write the stack. R28: that a RET leaves its slot as it is is decision D22 (notes/assumptions/20.md). -/
def Obligations.OnlyCallAndReturnTouchTheStack : Prop :=
  ∀ (i : Instr) (s t : State), exec i s = .next t → (∀ nnn, i ≠ .call nnn) → t.stack = s.stack ∧ (i ≠ .ret → t.sp = s.sp)

/-- R30, R241. -/
def Obligations.StepsLeaveKeysAndTimersAlone : Prop :=
  ∀ s t : State, step s = .next t → t.keys = s.keys ∧
    ((∀ x, decodeWord s.fetched ≠ .ok (.ldDTVx x)) → t.dt = s.dt) ∧
    ((∀ x, decodeWord s.fetched ≠ .ok (.ldSTVx x)) → t.st = s.st)

/-- R22, R159, R145. -/
def Obligations.OnlyThreeInstructionsWriteTheIndex : Prop :=
  ∀ (i : Instr) (s t : State), exec i s = .next t →
    ((∀ nnn, i ≠ .ldI nnn) → (∀ x, i ≠ .addI x) → (∀ x, i ≠ .ldF x) → t.iReg = s.iReg) ∧
    ((∀ x nn, i ≠ .rnd x nn) → t.rng = s.rng)

/-- R21 lists the writers of VF as a flag; files 41 to 44 give the destinations. -/
def Obligations.RegistersChangeOnlyAsDestinationOrFlag : Prop :=
  ∀ (i : Instr) (s t : State) (j : Nibble), mayWriteV j i = false → exec i s = .next t → t.getV j = s.getV j

/-- R35, the row PC. -/
def Obligations.OnlyControlFlowMovesThePC : Prop :=
  ∀ (i : Instr) (s t : State), mayWritePC i = false → exec i s = .next t → t.pc = s.pc

/-- R212, its last paragraph: this is decision D14 (notes/assumptions/15.md). -/
def Obligations.AwaitingExactlyAfterAnUnansweredKeyWait : Prop :=
  ∀ s t : State, s.pc.toNat + 1 ≤ 0xFFF → step s = .next t →
    (t.mode = .awaitingKey ↔ s.keys = 0 ∧ ∃ x, decodeWord s.fetched = .ok (.ldVxK x))

/-- R260, R25, R11. DIRTY, MODE and WAIT_X are decisions D26 and D14 (notes/assumptions/18.md, 15.md); the glyph bytes are the default of FONT, PRESUMED (5.md); the seed and how parameters are held are the model's choice (4.md, 35.md). -/
def Obligations.ResetHoldsTheListedValues : Prop :=
  (∀ (font : Font) (seed : Nat),
    (∀ x, (State.constructed font seed).getV x = 0) ∧ (State.constructed font seed).iReg = 0 ∧
    (State.constructed font seed).pc = 0x200 ∧ (State.constructed font seed).sp = 0 ∧
    (∀ (j : Nat) (h : j < 16), (State.constructed font seed).stack[j] = 0) ∧ (State.constructed font seed).dt = 0 ∧
    (State.constructed font seed).st = 0 ∧ (State.constructed font seed).keys = 0 ∧
    (∀ row col, pixel (State.constructed font seed).fb row col = false) ∧ (State.constructed font seed).dirty = false ∧
    (State.constructed font seed).mode = .running ∧ (State.constructed font seed).waitX = 0 ∧
    (∀ (a : Nat) (h : a < 0x050), (State.constructed font seed).readByte a = font[a]) ∧
    (∀ a, 0x050 ≤ a → a ≤ 0xFFF → (State.constructed font seed).readByte a = 0)) ∧
  State.reset = State.constructed fontTable 0 ∧
  State.reset.readBytes 0x000 40 =
    [0xF0, 0x90, 0x90, 0x90, 0xF0, 0x20, 0x60, 0x20, 0x20, 0x70, 0xF0, 0x10, 0xF0, 0x80, 0xF0, 0xF0, 0x10, 0xF0, 0x10, 0xF0] ++
    [0x90, 0x90, 0xF0, 0x10, 0x10, 0xF0, 0x80, 0xF0, 0x10, 0xF0, 0xF0, 0x80, 0xF0, 0x90, 0xF0, 0xF0, 0x10, 0x20, 0x40, 0x40] ∧
  State.reset.readBytes 0x028 40 =
    [0xF0, 0x90, 0xF0, 0x90, 0xF0, 0xF0, 0x90, 0xF0, 0x10, 0xF0, 0xF0, 0x90, 0xF0, 0x90, 0x90, 0xE0, 0x90, 0xE0, 0x90, 0xE0] ++
    [0xF0, 0x80, 0x80, 0x80, 0xF0, 0xE0, 0x90, 0x90, 0x90, 0xE0, 0xF0, 0x80, 0xF0, 0x80, 0xF0, 0xF0, 0x80, 0xF0, 0x80, 0x80]

/-- R261. That construct is a transaction on any existing state, and leaves what reset leaves, is the model's choice (notes/assumptions/29.md; R262 gives the block no state before it). The random source after reset is OPEN (D20, 4.md); the record of errors is the model's (2.md), and so is holding FONT in State (35.md). -/
def Obligations.ResetTransactionRestoresConstruction : Prop :=
  ∀ s : State, transact .reset s = .next { State.constructed s.font s.rng with errors := s.errors } ∧
    transact .construct s = .next { State.constructed s.font s.rng with errors := s.errors }

/-- R58, R236; the offset and the untouched state are decision D16 (notes/assumptions/17.md). -/
def Obligations.LoadPlacesTheBytesOrRefuses : Prop :=
  ∀ (s : State) (bytes : List Byte) (offset : Nat), ∃ t, transact (.loadProgram bytes offset) s = .next t ∧
    (((bytes.length : Int) > 4096 - (offset : Int) →
      t = { s with response := .err ⟨.capacityError, none, none⟩, errors := s.errors ++ [⟨.capacityError, none, none⟩] }) ∧
    ((bytes.length : Int) ≤ 4096 - (offset : Int) →
      (∀ (k : Nat) (h : k < bytes.length), t.readByte (offset + k) = bytes[k]) ∧
      (∀ a, a < offset ∨ offset + bytes.length ≤ a → t.readByte a = s.readByte a) ∧
      { t with mem := s.mem } = { s with response := .ok }))

/-- R240. -/
def Obligations.TicksCountDownToZero : Prop :=
  ∀ s : State, ∃ t, transact .tickTimers s = .next t ∧ t.dt.toNat = s.dt.toNat - 1 ∧ t.st.toNat = s.st.toNat - 1 ∧
    { t with dt := s.dt, st := s.st }.block = s.block

/-- R216. -/
def Obligations.SetKeysReplacesTheVector : Prop :=
  ∀ (s : State) (k : BitVec 16), ∃ t, transact (.setKeys k) s = .next t ∧
    (∀ j, j < 16 → t.keys.getLsbD j = k.getLsbD j) ∧ { t with keys := s.keys }.block = s.block

/-- R217. -/
def Obligations.ConsumeReadsAndClearsTheDirtyFlag : Prop :=
  ∀ s : State, ∃ t u, transact .consumeDrawFlag s = .next t ∧ t.response = .drawFlag s.dirty ∧
    t.block = { s with dirty := false }.block ∧
    transact .consumeDrawFlag t = .next u ∧ u.response = .drawFlag false ∧ u.block = t.block

/-- R218, R219; readStatus is the spec's decision D23 (notes/assumptions/21.md). -/
def Obligations.ObservationsWriteNothing : Prop :=
  ∀ s : State,
    (∃ t, transact .snapshotFramebuffer s = .next t ∧ t.response = .frame s.fb ∧ t.block = s.block) ∧
    (∃ t, transact .readStatus s = .next t ∧ t.response = .status s.dt s.st s.mode s.waitX ∧ t.block = s.block)

/-- R37: they hold in every state reachable from construction or reset. -/
def Obligations.ResetMeetsTheInvariants : Prop :=
  State.reset.Inv ∧ State.reset.WaitsAtKeyWait ∧
    ∀ (font : Font) (seed : Nat), (State.constructed font seed).Inv ∧ (State.constructed font seed).WaitsAtKeyWait

/-- R37, R23: reachable values of PC are at most 0x10FE, so PC never wraps; a CALL pushes at most 0x1000 (R102). -/
def Obligations.EveryStepKeepsTheInvariant : Prop :=
  ∀ s t : State, s.Inv → step s = .next t → t.Inv

/-- R37, R222. That SP is at most 16 holds by its type (DEDUCED, notes/assumptions/23.md), and that transactions come in any order and number is the model's reading (DEDUCED, 32.md). -/
def Obligations.ReachableStatesMeetTheInvariant : Prop :=
  (∀ (tr : Transaction) (s t : State), s.Inv → transact tr s = .next t → t.Inv) ∧
  ∀ s : State, Reachable s → s.Inv ∧ s.sp.val ≤ 16 ∧ ∀ c ∈ s.mem, c.1 ≤ 0xFFF

/-- R37: unless loadProgram has since rewritten that address. MODE and WAIT_X are decision D14 (notes/assumptions/15.md). -/
def Obligations.AwaitingStandsAtItsKeyWait : Prop :=
  ∀ (tr : Transaction) (s t : State), s.WaitsAtKeyWait → (∀ bytes offset, tr ≠ .loadProgram bytes offset) →
    transact tr s = .next t → t.WaitsAtKeyWait
end

