-- ==== Sys2Proof/Laws/Encoding.lean ====
section
/-! SUPPORT. The fields of the words that the encoder builds, one lemma per field and format. -/

namespace Sys2Proof

section
variable (a b c d : Nibble)

@[simp] theorem opField_wordOfNibbles : opField (wordOfNibbles a b c d) = a := by
  apply BitVec.eq_of_getLsbD_eq
  intro i hi
  simp only [opField, wordOfNibbles, BitVec.getLsbD_extractLsb', BitVec.getLsbD_append]
  rw [if_neg (by omega), if_neg (by omega), if_neg (by omega)]
  simp [hi, show 12 + i - 4 - 4 - 4 = i by omega]

@[simp] theorem xField_wordOfNibbles : xField (wordOfNibbles a b c d) = b := by
  apply BitVec.eq_of_getLsbD_eq
  intro i hi
  simp only [xField, wordOfNibbles, BitVec.getLsbD_extractLsb', BitVec.getLsbD_append]
  rw [if_neg (by omega), if_neg (by omega), if_pos (by omega)]
  simp [hi, show 8 + i - 4 - 4 = i by omega]

@[simp] theorem yField_wordOfNibbles : yField (wordOfNibbles a b c d) = c := by
  apply BitVec.eq_of_getLsbD_eq
  intro i hi
  simp only [yField, wordOfNibbles, BitVec.getLsbD_extractLsb', BitVec.getLsbD_append]
  rw [if_neg (by omega), if_pos (by omega)]
  simp [hi]

@[simp] theorem nField_wordOfNibbles : nField (wordOfNibbles a b c d) = d := by
  apply BitVec.eq_of_getLsbD_eq
  intro i hi
  simp only [nField, wordOfNibbles, BitVec.getLsbD_extractLsb', BitVec.getLsbD_append]
  rw [if_pos (by omega)]
  simp [hi]

end

section
variable (op x : Nibble) (nn : Byte) (nnn : Addr12)

@[simp] theorem opField_encodeNNN : opField (encodeNNN op nnn) = op := by
  apply BitVec.eq_of_getLsbD_eq
  intro i hi
  simp only [opField, encodeNNN, BitVec.getLsbD_extractLsb', BitVec.getLsbD_append]
  rw [if_neg (by omega)]
  simp [hi]

@[simp] theorem nnnField_encodeNNN : nnnField (encodeNNN op nnn) = nnn := by
  apply BitVec.eq_of_getLsbD_eq
  intro i hi
  simp only [nnnField, encodeNNN, BitVec.getLsbD_extractLsb', BitVec.getLsbD_append]
  rw [if_pos (by omega)]
  simp [hi]

@[simp] theorem opField_encodeXNN : opField (encodeXNN op x nn) = op := by
  apply BitVec.eq_of_getLsbD_eq
  intro i hi
  simp only [opField, encodeXNN, BitVec.getLsbD_extractLsb', BitVec.getLsbD_append]
  rw [if_neg (by omega), if_neg (by omega)]
  simp [hi, show 12 + i - 8 - 4 = i by omega]

@[simp] theorem xField_encodeXNN : xField (encodeXNN op x nn) = x := by
  apply BitVec.eq_of_getLsbD_eq
  intro i hi
  simp only [xField, encodeXNN, BitVec.getLsbD_extractLsb', BitVec.getLsbD_append]
  rw [if_neg (by omega), if_pos (by omega)]
  simp [hi]

@[simp] theorem nnField_encodeXNN : nnField (encodeXNN op x nn) = nn := by
  apply BitVec.eq_of_getLsbD_eq
  intro i hi
  simp only [nnField, encodeXNN, BitVec.getLsbD_extractLsb', BitVec.getLsbD_append]
  rw [if_pos (by omega)]
  simp [hi]

end

/-- The word of two bytes is the word whose bytes they are (R52). -/
@[simp] theorem wordOfBytes_bytes (w : Word) : wordOfBytes (highByte w) (lowByte w) = w := by
  apply BitVec.eq_of_getLsbD_eq
  intro i hi
  simp only [wordOfBytes, highByte, lowByte, BitVec.getLsbD_append, BitVec.getLsbD_extractLsb']
  split
  · simp_all
  · rw [show 8 + (i - 8) = i by omega]
    simp [show i - 8 < 8 by omega]

/-- The bytes of the word of two bytes are those bytes (R52). -/
@[simp] theorem highByte_wordOfBytes (hi lo : Byte) : highByte (wordOfBytes hi lo) = hi := by
  apply BitVec.eq_of_getLsbD_eq
  intro i h
  simp only [wordOfBytes, highByte, BitVec.getLsbD_append, BitVec.getLsbD_extractLsb']
  rw [if_neg (by omega)]
  simp [h]

@[simp] theorem lowByte_wordOfBytes (hi lo : Byte) : lowByte (wordOfBytes hi lo) = lo := by
  apply BitVec.eq_of_getLsbD_eq
  intro i h
  simp only [wordOfBytes, lowByte, BitVec.getLsbD_append, BitVec.getLsbD_extractLsb']
  rw [if_pos (by omega)]
  simp [h]

end Sys2Proof
end

