-- ==== Sys2Proof/Laws/Memory.lean ====
section
/-! SUPPORT. The laws of the memory image: read after write, and that every operation keeps the canonical form. -/

namespace Sys2Proof.Machine

variable {font : Font}

/-! ## One cell -/

theorem Memory.find_insert_same (m : Memory) (a : Nat) (b : Byte) : Memory.find (Memory.insert m a b) a = some b := by
  induction m with
  | nil => simp [Memory.insert, Memory.find]
  | cons c m ih =>
    obtain ⟨k, x⟩ := c
    simp only [Memory.insert]
    split
    · simp [Memory.find]
    · split
      · simp [Memory.find]
      · rename_i h
        simp [Memory.find, Ne.symm h, ih]

theorem Memory.find_insert_ne (m : Memory) {a a' : Nat} (b : Byte) (h : a' ≠ a) :
    Memory.find (Memory.insert m a b) a' = Memory.find m a' := by
  induction m with
  | nil => simp [Memory.insert, Memory.find, Ne.symm h]
  | cons c m ih =>
    obtain ⟨k, x⟩ := c
    simp only [Memory.insert]
    split
    · simp [Memory.find, Ne.symm h]
    · split
      · rename_i hk
        subst hk
        simp [Memory.find, Ne.symm h]
      · simp only [Memory.find, ih]

theorem Memory.find_erase_same (m : Memory) (a : Nat) : Memory.find (Memory.erase m a) a = none := by
  induction m with
  | nil => rfl
  | cons c m ih =>
    obtain ⟨k, x⟩ := c
    unfold Memory.erase at ih ⊢
    by_cases h : k = a
    · simpa [List.filter_cons, h] using ih
    · simpa [List.filter_cons, h, Memory.find] using ih

theorem Memory.find_erase_ne (m : Memory) {a a' : Nat} (h : a' ≠ a) :
    Memory.find (Memory.erase m a) a' = Memory.find m a' := by
  induction m with
  | nil => rfl
  | cons c m ih =>
    obtain ⟨k, x⟩ := c
    unfold Memory.erase at ih ⊢
    by_cases hk : k = a
    · subst hk
      simpa [List.filter_cons, Memory.find, Ne.symm h] using ih
    · by_cases hk' : k = a'
      · simp [hk', h, Memory.find]
      · simpa [List.filter_cons, hk, hk', Memory.find] using ih

/-- A byte reads as it was last written (R61). -/
theorem Memory.read_write_same (m : Memory) {a : Nat} (b : Byte) (h : a < Config.memSize) :
    Memory.read font (Memory.write font m a b) a = b := by
  simp only [Memory.write, h, if_true]
  split
  · rename_i hb
    simp [Memory.read, Memory.find_erase_same, hb]
  · simp [Memory.read, Memory.find_insert_same]

/-- A write leaves every other byte alone (R53). -/
theorem Memory.read_write_ne (m : Memory) {a a' : Nat} (b : Byte) (h : a' ≠ a) :
    Memory.read font (Memory.write font m a b) a' = Memory.read font m a' := by
  unfold Memory.write
  split
  · split
    · simp [Memory.read, Memory.find_erase_ne m h]
    · simp [Memory.read, Memory.find_insert_ne m b h]
  · rfl

/-! ## Ranges -/

/-- `writeBytes` leaves every byte outside its range alone (R54). -/
theorem Memory.read_writeBytes_outside (bs : List Byte) (m : Memory) (a a' : Nat) (h : a' < a ∨ a + bs.length ≤ a') :
    Memory.read font (Memory.writeBytes font m a bs) a' = Memory.read font m a' := by
  induction bs generalizing m a with
  | nil => rfl
  | cons b bs ih =>
    simp only [List.length_cons] at h
    rw [Memory.writeBytes, ih _ _ (by omega), Memory.read_write_ne _ _ (by omega)]

/-- `writeBytes` puts the k-th byte at the k-th address of its range (R154). -/
theorem Memory.read_writeBytes_inside (bs : List Byte) (m : Memory) (a k : Nat) (hk : k < bs.length)
    (h : a + bs.length ≤ Config.memSize) : Memory.read font (Memory.writeBytes font m a bs) (a + k) = bs[k] := by
  induction bs generalizing m a k with
  | nil => simp at hk
  | cons b bs ih =>
    simp only [List.length_cons] at h hk
    rw [Memory.writeBytes]
    cases k with
    | zero =>
      rw [Memory.read_writeBytes_outside _ _ _ _ (by omega)]
      exact Memory.read_write_same _ _ (by omega)
    | succ k =>
      rw [show a + (k + 1) = a + 1 + k by omega, ih _ _ _ (by omega) (by omega)]
      rfl

@[simp] theorem Memory.length_readBytes (m : Memory) (a n : Nat) : (Memory.readBytes font m a n).length = n := by
  induction n generalizing a with
  | zero => rfl
  | succ n ih => simp [Memory.readBytes, ih]

/-- The k-th byte of `readBytes` is the byte at the k-th address (R155). -/
theorem Memory.getElem_readBytes (m : Memory) (a n k : Nat) (h : k < (Memory.readBytes font m a n).length) :
    (Memory.readBytes font m a n)[k] = Memory.read font m (a + k) := by
  induction n generalizing a k with
  | zero => simp at h
  | succ n ih =>
    cases k with
    | zero => rfl
    | succ k =>
      simp only [Memory.readBytes, List.getElem_cons_succ]
      rw [ih, show a + 1 + k = a + (k + 1) by omega]

/-! ## The canonical form -/

theorem Memory.wfFrom_mono {lo lo' : Nat} (h : lo' ≤ lo) (m : Memory) (hm : Memory.wfFrom font lo m = true) :
    Memory.wfFrom font lo' m = true := by
  cases m with
  | nil => rfl
  | cons c m =>
    obtain ⟨k, x⟩ := c
    simp only [Memory.wfFrom, Bool.and_eq_true, decide_eq_true_eq] at hm ⊢
    exact ⟨⟨⟨by omega, hm.1.1.2⟩, hm.1.2⟩, hm.2⟩

theorem Memory.wfFrom_erase (m : Memory) (lo a : Nat) (hm : Memory.wfFrom font lo m = true) :
    Memory.wfFrom font lo (Memory.erase m a) = true := by
  induction m generalizing lo with
  | nil => rfl
  | cons c m ih =>
    obtain ⟨k, x⟩ := c
    simp only [Memory.wfFrom, Bool.and_eq_true, decide_eq_true_eq] at hm
    unfold Memory.erase at ih ⊢
    by_cases h : k = a
    · simpa [List.filter_cons, h] using Memory.wfFrom_mono (by omega) _ (ih _ hm.2)
    · simp only [List.filter_cons, ne_eq, h, not_false_eq_true, decide_true, if_true, Memory.wfFrom, Bool.and_eq_true,
        decide_eq_true_eq]
      exact ⟨hm.1, ih _ hm.2⟩

theorem Memory.wfFrom_insert (m : Memory) (lo a : Nat) (b : Byte) (hm : Memory.wfFrom font lo m = true) (hlo : lo ≤ a)
    (ha : a < Config.memSize) (hb : b ≠ initialByte font a) : Memory.wfFrom font lo (Memory.insert m a b) = true := by
  induction m generalizing lo with
  | nil => simp [Memory.insert, Memory.wfFrom, hlo, ha, hb]
  | cons c m ih =>
    obtain ⟨k, x⟩ := c
    simp only [Memory.wfFrom, Bool.and_eq_true, decide_eq_true_eq] at hm
    simp only [Memory.insert]
    split
    · simp only [Memory.wfFrom, Bool.and_eq_true, decide_eq_true_eq]
      exact ⟨⟨⟨hlo, ha⟩, hb⟩, ⟨⟨by omega, hm.1.1.2⟩, hm.1.2⟩, hm.2⟩
    · split
      · rename_i h
        subst h
        simp only [Memory.wfFrom, Bool.and_eq_true, decide_eq_true_eq]
        exact ⟨⟨⟨hlo, ha⟩, hb⟩, hm.2⟩
      · simp only [Memory.wfFrom, Bool.and_eq_true, decide_eq_true_eq]
        exact ⟨hm.1, ih _ hm.2 (by omega)⟩

/-- A write keeps the canonical form. -/
theorem Memory.wf_write (m : Memory) (a : Nat) (b : Byte) (hm : Memory.wf font m = true) :
    Memory.wf font (Memory.write font m a b) = true := by
  unfold Memory.write
  split
  · split
    · exact Memory.wfFrom_erase _ _ _ hm
    · exact Memory.wfFrom_insert _ _ _ _ hm (Nat.zero_le _) (by assumption) (by assumption)
  · exact hm

/-- A write of a range keeps the canonical form. -/
theorem Memory.wf_writeBytes (bs : List Byte) (m : Memory) (a : Nat) (hm : Memory.wf font m = true) :
    Memory.wf font (Memory.writeBytes font m a bs) = true := by
  induction bs generalizing m a with
  | nil => exact hm
  | cons b bs ih => exact ih _ _ (Memory.wf_write _ _ _ hm)

/-- The memory right after construction is in its canonical form. -/
theorem Memory.wf_constructed (seed : Nat) : Memory.wf font (State.constructed font seed).mem = true := rfl

end Sys2Proof.Machine
end

