-- ==== Sys2Proof/Laws/State.lean ====
section
/-! SUPPORT. What each named update does to each field of the state, and to the block, so that no proof unfolds a record
update. -/

namespace Sys2Proof.Machine

variable (s : State)

/-! ### setV -/

@[simp] theorem State.setV_v (x : Nibble) (b : Byte) : (s.setV x b).v = s.v.set x.toNat b x.isLt := rfl
@[simp] theorem State.setV_iReg (x : Nibble) (b : Byte) : (s.setV x b).iReg = s.iReg := rfl
@[simp] theorem State.setV_pc (x : Nibble) (b : Byte) : (s.setV x b).pc = s.pc := rfl
@[simp] theorem State.setV_mem (x : Nibble) (b : Byte) : (s.setV x b).mem = s.mem := rfl
@[simp] theorem State.setV_font (x : Nibble) (b : Byte) : (s.setV x b).font = s.font := rfl
@[simp] theorem State.setV_stack (x : Nibble) (b : Byte) : (s.setV x b).stack = s.stack := rfl
@[simp] theorem State.setV_sp (x : Nibble) (b : Byte) : (s.setV x b).sp = s.sp := rfl
@[simp] theorem State.setV_dt (x : Nibble) (b : Byte) : (s.setV x b).dt = s.dt := rfl
@[simp] theorem State.setV_st (x : Nibble) (b : Byte) : (s.setV x b).st = s.st := rfl
@[simp] theorem State.setV_keys (x : Nibble) (b : Byte) : (s.setV x b).keys = s.keys := rfl
@[simp] theorem State.setV_fb (x : Nibble) (b : Byte) : (s.setV x b).fb = s.fb := rfl
@[simp] theorem State.setV_dirty (x : Nibble) (b : Byte) : (s.setV x b).dirty = s.dirty := rfl
@[simp] theorem State.setV_mode (x : Nibble) (b : Byte) : (s.setV x b).mode = s.mode := rfl
@[simp] theorem State.setV_waitX (x : Nibble) (b : Byte) : (s.setV x b).waitX = s.waitX := rfl
@[simp] theorem State.setV_rng (x : Nibble) (b : Byte) : (s.setV x b).rng = s.rng := rfl
@[simp] theorem State.setV_response (x : Nibble) (b : Byte) : (s.setV x b).response = s.response := rfl
@[simp] theorem State.setV_errors (x : Nibble) (b : Byte) : (s.setV x b).errors = s.errors := rfl

/-! ### setI -/

@[simp] theorem State.setI_v (w : Word) : (s.setI w).v = s.v := rfl
@[simp] theorem State.setI_iReg (w : Word) : (s.setI w).iReg = w := rfl
@[simp] theorem State.setI_pc (w : Word) : (s.setI w).pc = s.pc := rfl
@[simp] theorem State.setI_mem (w : Word) : (s.setI w).mem = s.mem := rfl
@[simp] theorem State.setI_font (w : Word) : (s.setI w).font = s.font := rfl
@[simp] theorem State.setI_stack (w : Word) : (s.setI w).stack = s.stack := rfl
@[simp] theorem State.setI_sp (w : Word) : (s.setI w).sp = s.sp := rfl
@[simp] theorem State.setI_dt (w : Word) : (s.setI w).dt = s.dt := rfl
@[simp] theorem State.setI_st (w : Word) : (s.setI w).st = s.st := rfl
@[simp] theorem State.setI_keys (w : Word) : (s.setI w).keys = s.keys := rfl
@[simp] theorem State.setI_fb (w : Word) : (s.setI w).fb = s.fb := rfl
@[simp] theorem State.setI_dirty (w : Word) : (s.setI w).dirty = s.dirty := rfl
@[simp] theorem State.setI_mode (w : Word) : (s.setI w).mode = s.mode := rfl
@[simp] theorem State.setI_waitX (w : Word) : (s.setI w).waitX = s.waitX := rfl
@[simp] theorem State.setI_rng (w : Word) : (s.setI w).rng = s.rng := rfl
@[simp] theorem State.setI_response (w : Word) : (s.setI w).response = s.response := rfl
@[simp] theorem State.setI_errors (w : Word) : (s.setI w).errors = s.errors := rfl

/-! ### setPC -/

@[simp] theorem State.setPC_v (w : Word) : (s.setPC w).v = s.v := rfl
@[simp] theorem State.setPC_iReg (w : Word) : (s.setPC w).iReg = s.iReg := rfl
@[simp] theorem State.setPC_pc (w : Word) : (s.setPC w).pc = w := rfl
@[simp] theorem State.setPC_mem (w : Word) : (s.setPC w).mem = s.mem := rfl
@[simp] theorem State.setPC_font (w : Word) : (s.setPC w).font = s.font := rfl
@[simp] theorem State.setPC_stack (w : Word) : (s.setPC w).stack = s.stack := rfl
@[simp] theorem State.setPC_sp (w : Word) : (s.setPC w).sp = s.sp := rfl
@[simp] theorem State.setPC_dt (w : Word) : (s.setPC w).dt = s.dt := rfl
@[simp] theorem State.setPC_st (w : Word) : (s.setPC w).st = s.st := rfl
@[simp] theorem State.setPC_keys (w : Word) : (s.setPC w).keys = s.keys := rfl
@[simp] theorem State.setPC_fb (w : Word) : (s.setPC w).fb = s.fb := rfl
@[simp] theorem State.setPC_dirty (w : Word) : (s.setPC w).dirty = s.dirty := rfl
@[simp] theorem State.setPC_mode (w : Word) : (s.setPC w).mode = s.mode := rfl
@[simp] theorem State.setPC_waitX (w : Word) : (s.setPC w).waitX = s.waitX := rfl
@[simp] theorem State.setPC_rng (w : Word) : (s.setPC w).rng = s.rng := rfl
@[simp] theorem State.setPC_response (w : Word) : (s.setPC w).response = s.response := rfl
@[simp] theorem State.setPC_errors (w : Word) : (s.setPC w).errors = s.errors := rfl

/-! ### setDT -/

@[simp] theorem State.setDT_v (b : Byte) : (s.setDT b).v = s.v := rfl
@[simp] theorem State.setDT_iReg (b : Byte) : (s.setDT b).iReg = s.iReg := rfl
@[simp] theorem State.setDT_pc (b : Byte) : (s.setDT b).pc = s.pc := rfl
@[simp] theorem State.setDT_mem (b : Byte) : (s.setDT b).mem = s.mem := rfl
@[simp] theorem State.setDT_font (b : Byte) : (s.setDT b).font = s.font := rfl
@[simp] theorem State.setDT_stack (b : Byte) : (s.setDT b).stack = s.stack := rfl
@[simp] theorem State.setDT_sp (b : Byte) : (s.setDT b).sp = s.sp := rfl
@[simp] theorem State.setDT_dt (b : Byte) : (s.setDT b).dt = b := rfl
@[simp] theorem State.setDT_st (b : Byte) : (s.setDT b).st = s.st := rfl
@[simp] theorem State.setDT_keys (b : Byte) : (s.setDT b).keys = s.keys := rfl
@[simp] theorem State.setDT_fb (b : Byte) : (s.setDT b).fb = s.fb := rfl
@[simp] theorem State.setDT_dirty (b : Byte) : (s.setDT b).dirty = s.dirty := rfl
@[simp] theorem State.setDT_mode (b : Byte) : (s.setDT b).mode = s.mode := rfl
@[simp] theorem State.setDT_waitX (b : Byte) : (s.setDT b).waitX = s.waitX := rfl
@[simp] theorem State.setDT_rng (b : Byte) : (s.setDT b).rng = s.rng := rfl
@[simp] theorem State.setDT_response (b : Byte) : (s.setDT b).response = s.response := rfl
@[simp] theorem State.setDT_errors (b : Byte) : (s.setDT b).errors = s.errors := rfl

/-! ### setST -/

@[simp] theorem State.setST_v (b : Byte) : (s.setST b).v = s.v := rfl
@[simp] theorem State.setST_iReg (b : Byte) : (s.setST b).iReg = s.iReg := rfl
@[simp] theorem State.setST_pc (b : Byte) : (s.setST b).pc = s.pc := rfl
@[simp] theorem State.setST_mem (b : Byte) : (s.setST b).mem = s.mem := rfl
@[simp] theorem State.setST_font (b : Byte) : (s.setST b).font = s.font := rfl
@[simp] theorem State.setST_stack (b : Byte) : (s.setST b).stack = s.stack := rfl
@[simp] theorem State.setST_sp (b : Byte) : (s.setST b).sp = s.sp := rfl
@[simp] theorem State.setST_dt (b : Byte) : (s.setST b).dt = s.dt := rfl
@[simp] theorem State.setST_st (b : Byte) : (s.setST b).st = b := rfl
@[simp] theorem State.setST_keys (b : Byte) : (s.setST b).keys = s.keys := rfl
@[simp] theorem State.setST_fb (b : Byte) : (s.setST b).fb = s.fb := rfl
@[simp] theorem State.setST_dirty (b : Byte) : (s.setST b).dirty = s.dirty := rfl
@[simp] theorem State.setST_mode (b : Byte) : (s.setST b).mode = s.mode := rfl
@[simp] theorem State.setST_waitX (b : Byte) : (s.setST b).waitX = s.waitX := rfl
@[simp] theorem State.setST_rng (b : Byte) : (s.setST b).rng = s.rng := rfl
@[simp] theorem State.setST_response (b : Byte) : (s.setST b).response = s.response := rfl
@[simp] theorem State.setST_errors (b : Byte) : (s.setST b).errors = s.errors := rfl

/-! ### setRegs -/

@[simp] theorem State.setRegs_v (r : Vector Byte 16) : (s.setRegs r).v = r := rfl
@[simp] theorem State.setRegs_iReg (r : Vector Byte 16) : (s.setRegs r).iReg = s.iReg := rfl
@[simp] theorem State.setRegs_pc (r : Vector Byte 16) : (s.setRegs r).pc = s.pc := rfl
@[simp] theorem State.setRegs_mem (r : Vector Byte 16) : (s.setRegs r).mem = s.mem := rfl
@[simp] theorem State.setRegs_font (r : Vector Byte 16) : (s.setRegs r).font = s.font := rfl
@[simp] theorem State.setRegs_stack (r : Vector Byte 16) : (s.setRegs r).stack = s.stack := rfl
@[simp] theorem State.setRegs_sp (r : Vector Byte 16) : (s.setRegs r).sp = s.sp := rfl
@[simp] theorem State.setRegs_dt (r : Vector Byte 16) : (s.setRegs r).dt = s.dt := rfl
@[simp] theorem State.setRegs_st (r : Vector Byte 16) : (s.setRegs r).st = s.st := rfl
@[simp] theorem State.setRegs_keys (r : Vector Byte 16) : (s.setRegs r).keys = s.keys := rfl
@[simp] theorem State.setRegs_fb (r : Vector Byte 16) : (s.setRegs r).fb = s.fb := rfl
@[simp] theorem State.setRegs_dirty (r : Vector Byte 16) : (s.setRegs r).dirty = s.dirty := rfl
@[simp] theorem State.setRegs_mode (r : Vector Byte 16) : (s.setRegs r).mode = s.mode := rfl
@[simp] theorem State.setRegs_waitX (r : Vector Byte 16) : (s.setRegs r).waitX = s.waitX := rfl
@[simp] theorem State.setRegs_rng (r : Vector Byte 16) : (s.setRegs r).rng = s.rng := rfl
@[simp] theorem State.setRegs_response (r : Vector Byte 16) : (s.setRegs r).response = s.response := rfl
@[simp] theorem State.setRegs_errors (r : Vector Byte 16) : (s.setRegs r).errors = s.errors := rfl

/-! ### setMem -/

@[simp] theorem State.setMem_v (m : Memory) : (s.setMem m).v = s.v := rfl
@[simp] theorem State.setMem_iReg (m : Memory) : (s.setMem m).iReg = s.iReg := rfl
@[simp] theorem State.setMem_pc (m : Memory) : (s.setMem m).pc = s.pc := rfl
@[simp] theorem State.setMem_mem (m : Memory) : (s.setMem m).mem = m := rfl
@[simp] theorem State.setMem_font (m : Memory) : (s.setMem m).font = s.font := rfl
@[simp] theorem State.setMem_stack (m : Memory) : (s.setMem m).stack = s.stack := rfl
@[simp] theorem State.setMem_sp (m : Memory) : (s.setMem m).sp = s.sp := rfl
@[simp] theorem State.setMem_dt (m : Memory) : (s.setMem m).dt = s.dt := rfl
@[simp] theorem State.setMem_st (m : Memory) : (s.setMem m).st = s.st := rfl
@[simp] theorem State.setMem_keys (m : Memory) : (s.setMem m).keys = s.keys := rfl
@[simp] theorem State.setMem_fb (m : Memory) : (s.setMem m).fb = s.fb := rfl
@[simp] theorem State.setMem_dirty (m : Memory) : (s.setMem m).dirty = s.dirty := rfl
@[simp] theorem State.setMem_mode (m : Memory) : (s.setMem m).mode = s.mode := rfl
@[simp] theorem State.setMem_waitX (m : Memory) : (s.setMem m).waitX = s.waitX := rfl
@[simp] theorem State.setMem_rng (m : Memory) : (s.setMem m).rng = s.rng := rfl
@[simp] theorem State.setMem_response (m : Memory) : (s.setMem m).response = s.response := rfl
@[simp] theorem State.setMem_errors (m : Memory) : (s.setMem m).errors = s.errors := rfl

/-! ### writeBytes -/

@[simp] theorem State.writeBytes_v (a : Nat) (bs : List Byte) : (s.writeBytes a bs).v = s.v := rfl
@[simp] theorem State.writeBytes_iReg (a : Nat) (bs : List Byte) : (s.writeBytes a bs).iReg = s.iReg := rfl
@[simp] theorem State.writeBytes_pc (a : Nat) (bs : List Byte) : (s.writeBytes a bs).pc = s.pc := rfl
@[simp] theorem State.writeBytes_mem (a : Nat) (bs : List Byte) : (s.writeBytes a bs).mem = Memory.writeBytes s.font s.mem a bs := rfl
@[simp] theorem State.writeBytes_font (a : Nat) (bs : List Byte) : (s.writeBytes a bs).font = s.font := rfl
@[simp] theorem State.writeBytes_stack (a : Nat) (bs : List Byte) : (s.writeBytes a bs).stack = s.stack := rfl
@[simp] theorem State.writeBytes_sp (a : Nat) (bs : List Byte) : (s.writeBytes a bs).sp = s.sp := rfl
@[simp] theorem State.writeBytes_dt (a : Nat) (bs : List Byte) : (s.writeBytes a bs).dt = s.dt := rfl
@[simp] theorem State.writeBytes_st (a : Nat) (bs : List Byte) : (s.writeBytes a bs).st = s.st := rfl
@[simp] theorem State.writeBytes_keys (a : Nat) (bs : List Byte) : (s.writeBytes a bs).keys = s.keys := rfl
@[simp] theorem State.writeBytes_fb (a : Nat) (bs : List Byte) : (s.writeBytes a bs).fb = s.fb := rfl
@[simp] theorem State.writeBytes_dirty (a : Nat) (bs : List Byte) : (s.writeBytes a bs).dirty = s.dirty := rfl
@[simp] theorem State.writeBytes_mode (a : Nat) (bs : List Byte) : (s.writeBytes a bs).mode = s.mode := rfl
@[simp] theorem State.writeBytes_waitX (a : Nat) (bs : List Byte) : (s.writeBytes a bs).waitX = s.waitX := rfl
@[simp] theorem State.writeBytes_rng (a : Nat) (bs : List Byte) : (s.writeBytes a bs).rng = s.rng := rfl
@[simp] theorem State.writeBytes_response (a : Nat) (bs : List Byte) : (s.writeBytes a bs).response = s.response := rfl
@[simp] theorem State.writeBytes_errors (a : Nat) (bs : List Byte) : (s.writeBytes a bs).errors = s.errors := rfl

/-! ### awaitKey -/

@[simp] theorem State.awaitKey_v (x : Nibble) : (s.awaitKey x).v = s.v := rfl
@[simp] theorem State.awaitKey_iReg (x : Nibble) : (s.awaitKey x).iReg = s.iReg := rfl
@[simp] theorem State.awaitKey_pc (x : Nibble) : (s.awaitKey x).pc = s.pc - 2 := rfl
@[simp] theorem State.awaitKey_mem (x : Nibble) : (s.awaitKey x).mem = s.mem := rfl
@[simp] theorem State.awaitKey_font (x : Nibble) : (s.awaitKey x).font = s.font := rfl
@[simp] theorem State.awaitKey_stack (x : Nibble) : (s.awaitKey x).stack = s.stack := rfl
@[simp] theorem State.awaitKey_sp (x : Nibble) : (s.awaitKey x).sp = s.sp := rfl
@[simp] theorem State.awaitKey_dt (x : Nibble) : (s.awaitKey x).dt = s.dt := rfl
@[simp] theorem State.awaitKey_st (x : Nibble) : (s.awaitKey x).st = s.st := rfl
@[simp] theorem State.awaitKey_keys (x : Nibble) : (s.awaitKey x).keys = s.keys := rfl
@[simp] theorem State.awaitKey_fb (x : Nibble) : (s.awaitKey x).fb = s.fb := rfl
@[simp] theorem State.awaitKey_dirty (x : Nibble) : (s.awaitKey x).dirty = s.dirty := rfl
@[simp] theorem State.awaitKey_mode (x : Nibble) : (s.awaitKey x).mode = .awaitingKey := rfl
@[simp] theorem State.awaitKey_waitX (x : Nibble) : (s.awaitKey x).waitX = x := rfl
@[simp] theorem State.awaitKey_rng (x : Nibble) : (s.awaitKey x).rng = s.rng := rfl
@[simp] theorem State.awaitKey_response (x : Nibble) : (s.awaitKey x).response = s.response := rfl
@[simp] theorem State.awaitKey_errors (x : Nibble) : (s.awaitKey x).errors = s.errors := rfl

/-! ### display -/

@[simp] theorem State.display_v (fb : Framebuffer) : (s.display fb).v = s.v := rfl
@[simp] theorem State.display_iReg (fb : Framebuffer) : (s.display fb).iReg = s.iReg := rfl
@[simp] theorem State.display_pc (fb : Framebuffer) : (s.display fb).pc = s.pc := rfl
@[simp] theorem State.display_mem (fb : Framebuffer) : (s.display fb).mem = s.mem := rfl
@[simp] theorem State.display_font (fb : Framebuffer) : (s.display fb).font = s.font := rfl
@[simp] theorem State.display_stack (fb : Framebuffer) : (s.display fb).stack = s.stack := rfl
@[simp] theorem State.display_sp (fb : Framebuffer) : (s.display fb).sp = s.sp := rfl
@[simp] theorem State.display_dt (fb : Framebuffer) : (s.display fb).dt = s.dt := rfl
@[simp] theorem State.display_st (fb : Framebuffer) : (s.display fb).st = s.st := rfl
@[simp] theorem State.display_keys (fb : Framebuffer) : (s.display fb).keys = s.keys := rfl
@[simp] theorem State.display_fb (fb : Framebuffer) : (s.display fb).fb = fb := rfl
@[simp] theorem State.display_dirty (fb : Framebuffer) : (s.display fb).dirty = true := rfl
@[simp] theorem State.display_mode (fb : Framebuffer) : (s.display fb).mode = s.mode := rfl
@[simp] theorem State.display_waitX (fb : Framebuffer) : (s.display fb).waitX = s.waitX := rfl
@[simp] theorem State.display_rng (fb : Framebuffer) : (s.display fb).rng = s.rng := rfl
@[simp] theorem State.display_response (fb : Framebuffer) : (s.display fb).response = s.response := rfl
@[simp] theorem State.display_errors (fb : Framebuffer) : (s.display fb).errors = s.errors := rfl

/-! ### setFlagged -/

@[simp] theorem State.setFlagged_v (x : Nibble) (r : AluResult) : (s.setFlagged x r).v = (s.v.set 15 r.flag).set x.toNat r.value x.isLt := rfl
@[simp] theorem State.setFlagged_iReg (x : Nibble) (r : AluResult) : (s.setFlagged x r).iReg = s.iReg := rfl
@[simp] theorem State.setFlagged_pc (x : Nibble) (r : AluResult) : (s.setFlagged x r).pc = s.pc := rfl
@[simp] theorem State.setFlagged_mem (x : Nibble) (r : AluResult) : (s.setFlagged x r).mem = s.mem := rfl
@[simp] theorem State.setFlagged_font (x : Nibble) (r : AluResult) : (s.setFlagged x r).font = s.font := rfl
@[simp] theorem State.setFlagged_stack (x : Nibble) (r : AluResult) : (s.setFlagged x r).stack = s.stack := rfl
@[simp] theorem State.setFlagged_sp (x : Nibble) (r : AluResult) : (s.setFlagged x r).sp = s.sp := rfl
@[simp] theorem State.setFlagged_dt (x : Nibble) (r : AluResult) : (s.setFlagged x r).dt = s.dt := rfl
@[simp] theorem State.setFlagged_st (x : Nibble) (r : AluResult) : (s.setFlagged x r).st = s.st := rfl
@[simp] theorem State.setFlagged_keys (x : Nibble) (r : AluResult) : (s.setFlagged x r).keys = s.keys := rfl
@[simp] theorem State.setFlagged_fb (x : Nibble) (r : AluResult) : (s.setFlagged x r).fb = s.fb := rfl
@[simp] theorem State.setFlagged_dirty (x : Nibble) (r : AluResult) : (s.setFlagged x r).dirty = s.dirty := rfl
@[simp] theorem State.setFlagged_mode (x : Nibble) (r : AluResult) : (s.setFlagged x r).mode = s.mode := rfl
@[simp] theorem State.setFlagged_waitX (x : Nibble) (r : AluResult) : (s.setFlagged x r).waitX = s.waitX := rfl
@[simp] theorem State.setFlagged_rng (x : Nibble) (r : AluResult) : (s.setFlagged x r).rng = s.rng := rfl
@[simp] theorem State.setFlagged_response (x : Nibble) (r : AluResult) : (s.setFlagged x r).response = s.response := rfl
@[simp] theorem State.setFlagged_errors (x : Nibble) (r : AluResult) : (s.setFlagged x r).errors = s.errors := rfl

/-! ### complete -/

@[simp] theorem State.complete_v : (s.complete).v = s.v := rfl
@[simp] theorem State.complete_iReg : (s.complete).iReg = s.iReg := rfl
@[simp] theorem State.complete_pc : (s.complete).pc = s.pc := rfl
@[simp] theorem State.complete_mem : (s.complete).mem = s.mem := rfl
@[simp] theorem State.complete_font : (s.complete).font = s.font := rfl
@[simp] theorem State.complete_stack : (s.complete).stack = s.stack := rfl
@[simp] theorem State.complete_sp : (s.complete).sp = s.sp := rfl
@[simp] theorem State.complete_dt : (s.complete).dt = s.dt := rfl
@[simp] theorem State.complete_st : (s.complete).st = s.st := rfl
@[simp] theorem State.complete_keys : (s.complete).keys = s.keys := rfl
@[simp] theorem State.complete_fb : (s.complete).fb = s.fb := rfl
@[simp] theorem State.complete_dirty : (s.complete).dirty = s.dirty := rfl
@[simp] theorem State.complete_mode : (s.complete).mode = s.mode := rfl
@[simp] theorem State.complete_waitX : (s.complete).waitX = s.waitX := rfl
@[simp] theorem State.complete_rng : (s.complete).rng = s.rng := rfl
@[simp] theorem State.complete_response : (s.complete).response = .ok := rfl
@[simp] theorem State.complete_errors : (s.complete).errors = s.errors := rfl

/-! ### report -/

@[simp] theorem State.report_v (e : ErrorReport) : (s.report e).v = s.v := rfl
@[simp] theorem State.report_iReg (e : ErrorReport) : (s.report e).iReg = s.iReg := rfl
@[simp] theorem State.report_pc (e : ErrorReport) : (s.report e).pc = s.pc := rfl
@[simp] theorem State.report_mem (e : ErrorReport) : (s.report e).mem = s.mem := rfl
@[simp] theorem State.report_font (e : ErrorReport) : (s.report e).font = s.font := rfl
@[simp] theorem State.report_stack (e : ErrorReport) : (s.report e).stack = s.stack := rfl
@[simp] theorem State.report_sp (e : ErrorReport) : (s.report e).sp = s.sp := rfl
@[simp] theorem State.report_dt (e : ErrorReport) : (s.report e).dt = s.dt := rfl
@[simp] theorem State.report_st (e : ErrorReport) : (s.report e).st = s.st := rfl
@[simp] theorem State.report_keys (e : ErrorReport) : (s.report e).keys = s.keys := rfl
@[simp] theorem State.report_fb (e : ErrorReport) : (s.report e).fb = s.fb := rfl
@[simp] theorem State.report_dirty (e : ErrorReport) : (s.report e).dirty = s.dirty := rfl
@[simp] theorem State.report_mode (e : ErrorReport) : (s.report e).mode = s.mode := rfl
@[simp] theorem State.report_waitX (e : ErrorReport) : (s.report e).waitX = s.waitX := rfl
@[simp] theorem State.report_rng (e : ErrorReport) : (s.report e).rng = s.rng := rfl
@[simp] theorem State.report_response (e : ErrorReport) : (s.report e).response = .err e := rfl
@[simp] theorem State.report_errors (e : ErrorReport) : (s.report e).errors = s.errors ++ [e] := rfl

/-! ### raise -/

@[simp] theorem State.raise_v (k : ErrorKind) (i : Instr) : (s.raise k i).v = s.v := rfl
@[simp] theorem State.raise_iReg (k : ErrorKind) (i : Instr) : (s.raise k i).iReg = s.iReg := rfl
@[simp] theorem State.raise_pc (k : ErrorKind) (i : Instr) : (s.raise k i).pc = s.pc := rfl
@[simp] theorem State.raise_mem (k : ErrorKind) (i : Instr) : (s.raise k i).mem = s.mem := rfl
@[simp] theorem State.raise_font (k : ErrorKind) (i : Instr) : (s.raise k i).font = s.font := rfl
@[simp] theorem State.raise_stack (k : ErrorKind) (i : Instr) : (s.raise k i).stack = s.stack := rfl
@[simp] theorem State.raise_sp (k : ErrorKind) (i : Instr) : (s.raise k i).sp = s.sp := rfl
@[simp] theorem State.raise_dt (k : ErrorKind) (i : Instr) : (s.raise k i).dt = s.dt := rfl
@[simp] theorem State.raise_st (k : ErrorKind) (i : Instr) : (s.raise k i).st = s.st := rfl
@[simp] theorem State.raise_keys (k : ErrorKind) (i : Instr) : (s.raise k i).keys = s.keys := rfl
@[simp] theorem State.raise_fb (k : ErrorKind) (i : Instr) : (s.raise k i).fb = s.fb := rfl
@[simp] theorem State.raise_dirty (k : ErrorKind) (i : Instr) : (s.raise k i).dirty = s.dirty := rfl
@[simp] theorem State.raise_mode (k : ErrorKind) (i : Instr) : (s.raise k i).mode = s.mode := rfl
@[simp] theorem State.raise_waitX (k : ErrorKind) (i : Instr) : (s.raise k i).waitX = s.waitX := rfl
@[simp] theorem State.raise_rng (k : ErrorKind) (i : Instr) : (s.raise k i).rng = s.rng := rfl
@[simp] theorem State.raise_response (k : ErrorKind) (i : Instr) : (s.raise k i).response = .err ⟨k, some (s.pc - 2), some (encode i)⟩ := rfl
@[simp] theorem State.raise_errors (k : ErrorKind) (i : Instr) : (s.raise k i).errors = s.errors ++ [⟨k, some (s.pc - 2), some (encode i)⟩] := rfl

/-! ### advance -/

@[simp] theorem State.advance_v : (s.advance).v = s.v := rfl
@[simp] theorem State.advance_iReg : (s.advance).iReg = s.iReg := rfl
@[simp] theorem State.advance_pc : (s.advance).pc = s.pc + 2 := rfl
@[simp] theorem State.advance_mem : (s.advance).mem = s.mem := rfl
@[simp] theorem State.advance_font : (s.advance).font = s.font := rfl
@[simp] theorem State.advance_stack : (s.advance).stack = s.stack := rfl
@[simp] theorem State.advance_sp : (s.advance).sp = s.sp := rfl
@[simp] theorem State.advance_dt : (s.advance).dt = s.dt := rfl
@[simp] theorem State.advance_st : (s.advance).st = s.st := rfl
@[simp] theorem State.advance_keys : (s.advance).keys = s.keys := rfl
@[simp] theorem State.advance_fb : (s.advance).fb = s.fb := rfl
@[simp] theorem State.advance_dirty : (s.advance).dirty = s.dirty := rfl
@[simp] theorem State.advance_mode : (s.advance).mode = .running := rfl
@[simp] theorem State.advance_waitX : (s.advance).waitX = s.waitX := rfl
@[simp] theorem State.advance_rng : (s.advance).rng = s.rng := rfl
@[simp] theorem State.advance_response : (s.advance).response = s.response := rfl
@[simp] theorem State.advance_errors : (s.advance).errors = s.errors := rfl

/-! ### respond -/

@[simp] theorem State.respond_v (r : Response) : (s.respond r).v = s.v := rfl
@[simp] theorem State.respond_iReg (r : Response) : (s.respond r).iReg = s.iReg := rfl
@[simp] theorem State.respond_pc (r : Response) : (s.respond r).pc = s.pc := rfl
@[simp] theorem State.respond_mem (r : Response) : (s.respond r).mem = s.mem := rfl
@[simp] theorem State.respond_font (r : Response) : (s.respond r).font = s.font := rfl
@[simp] theorem State.respond_stack (r : Response) : (s.respond r).stack = s.stack := rfl
@[simp] theorem State.respond_sp (r : Response) : (s.respond r).sp = s.sp := rfl
@[simp] theorem State.respond_dt (r : Response) : (s.respond r).dt = s.dt := rfl
@[simp] theorem State.respond_st (r : Response) : (s.respond r).st = s.st := rfl
@[simp] theorem State.respond_keys (r : Response) : (s.respond r).keys = s.keys := rfl
@[simp] theorem State.respond_fb (r : Response) : (s.respond r).fb = s.fb := rfl
@[simp] theorem State.respond_dirty (r : Response) : (s.respond r).dirty = s.dirty := rfl
@[simp] theorem State.respond_mode (r : Response) : (s.respond r).mode = s.mode := rfl
@[simp] theorem State.respond_waitX (r : Response) : (s.respond r).waitX = s.waitX := rfl
@[simp] theorem State.respond_rng (r : Response) : (s.respond r).rng = s.rng := rfl
@[simp] theorem State.respond_response (r : Response) : (s.respond r).response = r := rfl
@[simp] theorem State.respond_errors (r : Response) : (s.respond r).errors = s.errors := rfl

/-! ### skipIf -/

@[simp] theorem State.skipIf_v (c : Bool) : (s.skipIf c).v = s.v := rfl
@[simp] theorem State.skipIf_iReg (c : Bool) : (s.skipIf c).iReg = s.iReg := rfl
@[simp] theorem State.skipIf_pc (c : Bool) : (s.skipIf c).pc = if c then s.pc + 2 else s.pc := rfl
@[simp] theorem State.skipIf_mem (c : Bool) : (s.skipIf c).mem = s.mem := rfl
@[simp] theorem State.skipIf_font (c : Bool) : (s.skipIf c).font = s.font := rfl
@[simp] theorem State.skipIf_stack (c : Bool) : (s.skipIf c).stack = s.stack := rfl
@[simp] theorem State.skipIf_sp (c : Bool) : (s.skipIf c).sp = s.sp := rfl
@[simp] theorem State.skipIf_dt (c : Bool) : (s.skipIf c).dt = s.dt := rfl
@[simp] theorem State.skipIf_st (c : Bool) : (s.skipIf c).st = s.st := rfl
@[simp] theorem State.skipIf_keys (c : Bool) : (s.skipIf c).keys = s.keys := rfl
@[simp] theorem State.skipIf_fb (c : Bool) : (s.skipIf c).fb = s.fb := rfl
@[simp] theorem State.skipIf_dirty (c : Bool) : (s.skipIf c).dirty = s.dirty := rfl
@[simp] theorem State.skipIf_mode (c : Bool) : (s.skipIf c).mode = s.mode := rfl
@[simp] theorem State.skipIf_waitX (c : Bool) : (s.skipIf c).waitX = s.waitX := rfl
@[simp] theorem State.skipIf_rng (c : Bool) : (s.skipIf c).rng = s.rng := rfl
@[simp] theorem State.skipIf_response (c : Bool) : (s.skipIf c).response = s.response := rfl
@[simp] theorem State.skipIf_errors (c : Bool) : (s.skipIf c).errors = s.errors := rfl

/-! ### block: the state of the block alone -/

@[simp] theorem State.complete_block : s.complete.block = s.block := rfl
@[simp] theorem State.report_block (e : ErrorReport) : (s.report e).block = s.block := rfl
@[simp] theorem State.raise_block (k : ErrorKind) (i : Instr) : (s.raise k i).block = s.block := rfl
@[simp] theorem State.respond_block (r : Response) : (s.respond r).block = s.block := rfl
@[simp] theorem State.fetchError_block : s.fetchError.block = s.block := rfl
@[simp] theorem State.unknownOpcode_block (w : Word) : (s.unknownOpcode w).block = s.block := rfl

/-! ### register reads -/

/-- A register reads as the byte last written to it (R20). -/
@[simp] theorem State.getV_setV_same (x : Nibble) (b : Byte) : (s.setV x b).getV x = b := by
  simp [State.getV, State.setV]

/-- A write to a register leaves every other register alone (R20). -/
theorem State.getV_setV_ne {x y : Nibble} (b : Byte) (h : x ≠ y) : (s.setV x b).getV y = s.getV y := by
  have h' : x.toNat ≠ y.toNat := fun e => h (BitVec.eq_of_toNat_eq e)
  simp [State.getV, State.setV, h']

end Sys2Proof.Machine
end

