-- ==== Sys2Proof/Laws/Ops.lean ====
section
/-! SUPPORT. One lemma per shared operation, which says once everything the operation can do. -/

namespace Sys2Proof.Machine

/-- `push` (R28): absent exactly when SP = 16; else the word goes to slot SP, and SP counts it. -/
theorem State.push_cases (s : State) (w : Word) :
    (s.sp.val = 16 ∧ s.push w = none) ∨
    ∃ (h : s.sp.val < 16), s.push w =
      some { s with stack := s.stack.set s.sp.val w h, sp := ⟨s.sp.val + 1, Nat.succ_lt_succ h⟩ } := by
  by_cases h : s.sp.val < 16
  · exact .inr ⟨h, by simp [State.push, Config.stackDepth, h]⟩
  · exact .inl ⟨by omega, by simp [State.push, Config.stackDepth, h]⟩

/-- `pop` (R28): absent exactly when SP = 0; else slot SP - 1, and SP counts one less. -/
theorem State.pop_cases (s : State) :
    (s.sp.val = 0 ∧ s.pop = none) ∨
    ∃ (_ : s.sp.val ≠ 0) (h' : s.sp.val - 1 < 16), s.pop =
      some (s.stack[s.sp.val - 1]'h', { s with sp := ⟨s.sp.val - 1, by omega⟩ }) := by
  by_cases h : s.sp.val = 0
  · exact .inl ⟨h, by simp [State.pop, h]⟩
  · exact .inr ⟨h, by omega, by simp [State.pop, h]⟩

/-- `keyIndex` (R190): absent exactly when V[x] is above 0x0F. -/
theorem State.keyIndex_cases (s : State) (x : Nibble) :
    ((s.getV x).toNat > 0x0F ∧ s.keyIndex x = none) ∨
    ((s.getV x).toNat ≤ 0x0F ∧ s.keyIndex x = some (s.getV x).toNat) := by
  unfold State.keyIndex
  split
  · exact .inl ⟨by assumption, rfl⟩
  · exact .inr ⟨by omega, rfl⟩

/-- `inMemory` (R54): the range ends at or below 0xFFF. -/
theorem inMemory_iff (a n : Nat) : inMemory a n = true ↔ a + n ≤ 4096 := decide_eq_true_iff

/-- `rangeOk` (R54): the range is empty, or its last byte is at most 0xFFF. -/
theorem State.rangeOk_iff (s : State) (n : Nat) : s.rangeOk n = true ↔ n = 0 ∨ s.iReg.toNat + n ≤ 4096 := by
  simp only [State.rangeOk, State.base, Bool.or_eq_true, decide_eq_true_eq, inMemory_iff]

/-- `canFetch` (R52). -/
theorem State.canFetch_iff (s : State) : s.canFetch = true ↔ s.pc.toNat + 1 ≤ 0xFFF := by
  rw [State.canFetch, inMemory_iff]
  omega

/-- `writeBytes` puts the k-th byte at the k-th address of its range (R154). -/
theorem State.readByte_writeBytes_inside (s : State) (a k : Nat) (bs : List Byte) (hk : k < bs.length)
    (h : a + bs.length ≤ Config.memSize) : (s.writeBytes a bs).readByte (a + k) = bs[k] :=
  Memory.read_writeBytes_inside bs s.mem a k hk h

/-- `writeBytes` leaves every byte outside its range alone (R54). -/
theorem State.readByte_writeBytes_outside (s : State) (a a' : Nat) (bs : List Byte) (h : a' < a ∨ a + bs.length ≤ a') :
    (s.writeBytes a bs).readByte a' = s.readByte a' :=
  Memory.read_writeBytes_outside bs s.mem a a' h

@[simp] theorem State.length_readBytes (s : State) (a n : Nat) : (s.readBytes a n).length = n :=
  Memory.length_readBytes s.mem a n

/-- The k-th byte of `readBytes` is the byte at the k-th address (R155). -/
theorem State.getElem_readBytes (s : State) (a n k : Nat) (h : k < (s.readBytes a n).length) :
    (s.readBytes a n)[k] = s.readByte (a + k) :=
  Memory.getElem_readBytes s.mem a n k h

/-- `fetched` (R52) is the word of the two bytes at PC, the first in its high byte. -/
theorem State.fetched_eq (s : State) : s.fetched = wordOfBytes (s.readByte s.pc.toNat) (s.readByte (s.pc.toNat + 1)) := rfl

/-- A fetch with PC at `p` (R52) reads the two bytes at `p` and `p + 1`. -/
theorem State.fetched_atPC (s : State) {p : Nat} (h : p ≤ 0xFFF) :
    (s.atPC p).fetched = wordOfBytes (s.readByte p) (s.readByte (p + 1)) := by
  have hp : (s.atPC p).pc.toNat = p := by simp only [State.atPC, BitVec.toNat_ofNat]; omega
  rw [State.fetched_eq, hp]
  rfl

/-- A byte of memory is what the next fetch of its address reads (R63). -/
theorem State.fetchReads_readByte (s : State) {a : Nat} (h : a ≤ 0xFFF) : s.FetchReads a (s.readByte a) := by
  refine ⟨fun _ => ?_, fun h0 => ?_⟩
  · rw [State.fetched_atPC s h, highByte_wordOfBytes]
  · rw [State.fetched_atPC s (by omega), lowByte_wordOfBytes, show a - 1 + 1 = a by omega]

/-- After construction the memory reads as FONT below 80 and as 0x00 from there on (R24, R25). -/
theorem State.readByte_constructed (font : Font) (seed a : Nat) :
    (State.constructed font seed).readByte a = initialByte font a := rfl

/-- `lowestPressed` (R194): absent exactly when no key is pressed; else a pressed key below which none is pressed. -/
theorem lowestPressed_cases (keys : BitVec 16) :
    (keys = 0 ∧ lowestPressed keys = none) ∨
    ∃ k, k < 16 ∧ keys.getLsbD k = true ∧ (∀ j, j < k → keys.getLsbD j = false) ∧ lowestPressed keys = some k := by
  cases h : lowestPressed keys with
  | none =>
    refine .inl ⟨?_, rfl⟩
    simp only [lowestPressed, keyPressed, List.find?_eq_none, List.mem_range] at h
    apply BitVec.eq_of_getLsbD_eq
    intro i hi
    simpa using h i hi
  | some k =>
    refine .inr ⟨k, ?_⟩
    simp only [lowestPressed, keyPressed, List.find?_eq_some_iff_getElem] at h
    obtain ⟨hk, i, hi, rfl, hlow⟩ := h
    simp only [List.length_range] at hi
    simp only [List.getElem_range] at hk hlow ⊢
    exact ⟨hi, hk, fun j hj => by simpa using hlow j hj, trivial⟩

/-- `loadFrom` (R155): register `j` gets the byte that its place in the list gives it, and keeps its own if none does. -/
theorem getElem_loadFrom (bs : List Byte) (v : Vector Byte 16) (k j : Nat) (hj : j < 16) :
    (loadFrom v k bs)[j] = if h : k ≤ j ∧ j - k < bs.length then bs[j - k]'h.2 else v[j] := by
  induction bs generalizing v k with
  | nil => simp [loadFrom]
  | cons b bs ih =>
    rw [loadFrom, ih]
    by_cases h1 : k + 1 ≤ j ∧ j - (k + 1) < bs.length
    · have h2 : k ≤ j ∧ j - k < (b :: bs).length := by simp; omega
      rw [dif_pos h1, dif_pos h2]
      have : j - k = (j - (k + 1)) + 1 := by omega
      simp [this]
    · rw [dif_neg h1]
      by_cases h2 : k ≤ j ∧ j - k < (b :: bs).length
      · rw [dif_pos h2]
        have : j = k := by simp at h2; omega
        subst this
        simp
      · rw [dif_neg h2]
        have : k ≠ j := by rintro rfl; simp at h2
        simp [Vector.getElem_setIfInBounds_ne, this]

/-- `xorPixel` (R171): the pixel it names is XORed with the bit, and no other changes. -/
theorem pixel_xorPixel (fb : Framebuffer) (row row' : Fin 32) (col col' : Fin 64) (bit : Bool) :
    pixel (xorPixel fb row col bit) row' col' =
      if row = row' ∧ col = col' then (pixel fb row' col' ^^ bit) else pixel fb row' col' := by
  unfold pixel xorPixel
  by_cases hr : row = row'
  · subst hr
    by_cases hc : col = col'
    · subst hc
      cases bit <;> simp
    · have hc' : col.val ≠ col'.val := fun e => hc (Fin.ext e)
      cases bit
      · simp
      · simp only [if_true, Vector.getElem_set_self, BitVec.getLsbD_xor, hc, and_false, if_false]
        simp only [BitVec.getLsbD_shiftLeft, BitVec.getLsbD_one]
        by_cases hlt : col'.val < col.val
        · simp [hlt]
        · have : ¬ (col'.val - col.val = 0) := by omega
          simp [this]
  · have hr' : row.val ≠ row'.val := fun e => hr (Fin.ext e)
    simp [hr, hr']

/-- A driver advance from a PC that can be fetched does not wrap (R212). -/
theorem State.advance_pc_toNat (s : State) (h : s.canFetch = true) : s.advance.pc.toNat = s.pc.toNat + 2 := by
  rw [State.canFetch_iff] at h
  have two : (2 : Word).toNat = 2 := rfl
  simp only [State.advance_pc, BitVec.toNat_add, two]
  omega

end Sys2Proof.Machine
end

