-- ==== Sys2Proof/Laws/PerInstr.lean ====
section
/-! SUPPORT. What holds of every instruction as syntax, one lemma per constructor.

`Fits`: the operands fit the fields of the format (spec 30_encoding.md R72). `OwnRow`: the encoded word is selected by the
instruction's own row of the opcode map and by no other row (R74, R75). -/

/-- Every operand fits its field (R72, R73). -/
def Sys2Proof.Laws.Fits.Statement (i : Sys2Proof.Instr) : Prop := i.wellFormed = true

/-- Of all rows of the opcode map, exactly the instruction's own selects its word (R75). -/
def Sys2Proof.Laws.OwnRow.Statement (i : Sys2Proof.Instr) : Prop :=
  (Sys2Proof.opcodeMap.filter fun r => r.selects (Sys2Proof.encode i)).map (·.mnemonic) = [Sys2Proof.mnemonicOf i]

namespace Sys2Proof.Laws

@[simp] theorem fits_reg (x : Nibble) : Operand.fits ⟨.reg, x.toNat⟩ = true := decide_eq_true x.isLt
@[simp] theorem fits_byte (nn : Byte) : Operand.fits ⟨.byte, nn.toNat⟩ = true := decide_eq_true nn.isLt
@[simp] theorem fits_addr (nnn : Addr12) : Operand.fits ⟨.addr, nnn.toNat⟩ = true := decide_eq_true nnn.isLt
@[simp] theorem fits_rows (n : Nibble) : Operand.fits ⟨.rows, n.toNat⟩ = true := decide_eq_true n.isLt

theorem Fits.cls : Fits.Statement (.cls) := by
  simp [Fits.Statement, Instr.wellFormed, Instr.operands]
theorem OwnRow.cls : OwnRow.Statement (.cls) := by
  rfl

theorem Fits.ret : Fits.Statement (.ret) := by
  simp [Fits.Statement, Instr.wellFormed, Instr.operands]
theorem OwnRow.ret : OwnRow.Statement (.ret) := by
  rfl

theorem Fits.jp (nnn : Addr12) : Fits.Statement (.jp nnn) := by
  simp [Fits.Statement, Instr.wellFormed, Instr.operands]
theorem OwnRow.jp (nnn : Addr12) : OwnRow.Statement (.jp nnn) := by
  simp [OwnRow.Statement, opcodeMap, opcodeMapFlow, opcodeMapAlu, opcodeMapMid, opcodeMapF, List.filter, OpcodeRow.selects,
    NibblePat.accepts, encode, mnemonicOf]

theorem Fits.call (nnn : Addr12) : Fits.Statement (.call nnn) := by
  simp [Fits.Statement, Instr.wellFormed, Instr.operands]
theorem OwnRow.call (nnn : Addr12) : OwnRow.Statement (.call nnn) := by
  simp [OwnRow.Statement, opcodeMap, opcodeMapFlow, opcodeMapAlu, opcodeMapMid, opcodeMapF, List.filter, OpcodeRow.selects,
    NibblePat.accepts, encode, mnemonicOf]

theorem Fits.seByte (x : Nibble) (nn : Byte) : Fits.Statement (.seByte x nn) := by
  simp [Fits.Statement, Instr.wellFormed, Instr.operands]
theorem OwnRow.seByte (x : Nibble) (nn : Byte) : OwnRow.Statement (.seByte x nn) := by
  simp [OwnRow.Statement, opcodeMap, opcodeMapFlow, opcodeMapAlu, opcodeMapMid, opcodeMapF, List.filter, OpcodeRow.selects,
    NibblePat.accepts, encode, mnemonicOf]

theorem Fits.sneByte (x : Nibble) (nn : Byte) : Fits.Statement (.sneByte x nn) := by
  simp [Fits.Statement, Instr.wellFormed, Instr.operands]
theorem OwnRow.sneByte (x : Nibble) (nn : Byte) : OwnRow.Statement (.sneByte x nn) := by
  simp [OwnRow.Statement, opcodeMap, opcodeMapFlow, opcodeMapAlu, opcodeMapMid, opcodeMapF, List.filter, OpcodeRow.selects,
    NibblePat.accepts, encode, mnemonicOf]

theorem Fits.seReg (x : Nibble) (y : Nibble) : Fits.Statement (.seReg x y) := by
  simp [Fits.Statement, Instr.wellFormed, Instr.operands]
theorem OwnRow.seReg (x : Nibble) (y : Nibble) : OwnRow.Statement (.seReg x y) := by
  simp [OwnRow.Statement, opcodeMap, opcodeMapFlow, opcodeMapAlu, opcodeMapMid, opcodeMapF, List.filter, OpcodeRow.selects,
    NibblePat.accepts, encode, mnemonicOf]

theorem Fits.ldByte (x : Nibble) (nn : Byte) : Fits.Statement (.ldByte x nn) := by
  simp [Fits.Statement, Instr.wellFormed, Instr.operands]
theorem OwnRow.ldByte (x : Nibble) (nn : Byte) : OwnRow.Statement (.ldByte x nn) := by
  simp [OwnRow.Statement, opcodeMap, opcodeMapFlow, opcodeMapAlu, opcodeMapMid, opcodeMapF, List.filter, OpcodeRow.selects,
    NibblePat.accepts, encode, mnemonicOf]

theorem Fits.addByte (x : Nibble) (nn : Byte) : Fits.Statement (.addByte x nn) := by
  simp [Fits.Statement, Instr.wellFormed, Instr.operands]
theorem OwnRow.addByte (x : Nibble) (nn : Byte) : OwnRow.Statement (.addByte x nn) := by
  simp [OwnRow.Statement, opcodeMap, opcodeMapFlow, opcodeMapAlu, opcodeMapMid, opcodeMapF, List.filter, OpcodeRow.selects,
    NibblePat.accepts, encode, mnemonicOf]

theorem Fits.ldReg (x : Nibble) (y : Nibble) : Fits.Statement (.ldReg x y) := by
  simp [Fits.Statement, Instr.wellFormed, Instr.operands]
theorem OwnRow.ldReg (x : Nibble) (y : Nibble) : OwnRow.Statement (.ldReg x y) := by
  simp [OwnRow.Statement, opcodeMap, opcodeMapFlow, opcodeMapAlu, opcodeMapMid, opcodeMapF, List.filter, OpcodeRow.selects,
    NibblePat.accepts, encode, mnemonicOf]

theorem Fits.orReg (x : Nibble) (y : Nibble) : Fits.Statement (.orReg x y) := by
  simp [Fits.Statement, Instr.wellFormed, Instr.operands]
theorem OwnRow.orReg (x : Nibble) (y : Nibble) : OwnRow.Statement (.orReg x y) := by
  simp [OwnRow.Statement, opcodeMap, opcodeMapFlow, opcodeMapAlu, opcodeMapMid, opcodeMapF, List.filter, OpcodeRow.selects,
    NibblePat.accepts, encode, mnemonicOf]

theorem Fits.andReg (x : Nibble) (y : Nibble) : Fits.Statement (.andReg x y) := by
  simp [Fits.Statement, Instr.wellFormed, Instr.operands]
theorem OwnRow.andReg (x : Nibble) (y : Nibble) : OwnRow.Statement (.andReg x y) := by
  simp [OwnRow.Statement, opcodeMap, opcodeMapFlow, opcodeMapAlu, opcodeMapMid, opcodeMapF, List.filter, OpcodeRow.selects,
    NibblePat.accepts, encode, mnemonicOf]

theorem Fits.xorReg (x : Nibble) (y : Nibble) : Fits.Statement (.xorReg x y) := by
  simp [Fits.Statement, Instr.wellFormed, Instr.operands]
theorem OwnRow.xorReg (x : Nibble) (y : Nibble) : OwnRow.Statement (.xorReg x y) := by
  simp [OwnRow.Statement, opcodeMap, opcodeMapFlow, opcodeMapAlu, opcodeMapMid, opcodeMapF, List.filter, OpcodeRow.selects,
    NibblePat.accepts, encode, mnemonicOf]

theorem Fits.addReg (x : Nibble) (y : Nibble) : Fits.Statement (.addReg x y) := by
  simp [Fits.Statement, Instr.wellFormed, Instr.operands]
theorem OwnRow.addReg (x : Nibble) (y : Nibble) : OwnRow.Statement (.addReg x y) := by
  simp [OwnRow.Statement, opcodeMap, opcodeMapFlow, opcodeMapAlu, opcodeMapMid, opcodeMapF, List.filter, OpcodeRow.selects,
    NibblePat.accepts, encode, mnemonicOf]

theorem Fits.subReg (x : Nibble) (y : Nibble) : Fits.Statement (.subReg x y) := by
  simp [Fits.Statement, Instr.wellFormed, Instr.operands]
theorem OwnRow.subReg (x : Nibble) (y : Nibble) : OwnRow.Statement (.subReg x y) := by
  simp [OwnRow.Statement, opcodeMap, opcodeMapFlow, opcodeMapAlu, opcodeMapMid, opcodeMapF, List.filter, OpcodeRow.selects,
    NibblePat.accepts, encode, mnemonicOf]

theorem Fits.shr (x : Nibble) (y : Nibble) : Fits.Statement (.shr x y) := by
  simp [Fits.Statement, Instr.wellFormed, Instr.operands]
theorem OwnRow.shr (x : Nibble) (y : Nibble) : OwnRow.Statement (.shr x y) := by
  simp [OwnRow.Statement, opcodeMap, opcodeMapFlow, opcodeMapAlu, opcodeMapMid, opcodeMapF, List.filter, OpcodeRow.selects,
    NibblePat.accepts, encode, mnemonicOf]

theorem Fits.subnReg (x : Nibble) (y : Nibble) : Fits.Statement (.subnReg x y) := by
  simp [Fits.Statement, Instr.wellFormed, Instr.operands]
theorem OwnRow.subnReg (x : Nibble) (y : Nibble) : OwnRow.Statement (.subnReg x y) := by
  simp [OwnRow.Statement, opcodeMap, opcodeMapFlow, opcodeMapAlu, opcodeMapMid, opcodeMapF, List.filter, OpcodeRow.selects,
    NibblePat.accepts, encode, mnemonicOf]

theorem Fits.shl (x : Nibble) (y : Nibble) : Fits.Statement (.shl x y) := by
  simp [Fits.Statement, Instr.wellFormed, Instr.operands]
theorem OwnRow.shl (x : Nibble) (y : Nibble) : OwnRow.Statement (.shl x y) := by
  simp [OwnRow.Statement, opcodeMap, opcodeMapFlow, opcodeMapAlu, opcodeMapMid, opcodeMapF, List.filter, OpcodeRow.selects,
    NibblePat.accepts, encode, mnemonicOf]

theorem Fits.sneReg (x : Nibble) (y : Nibble) : Fits.Statement (.sneReg x y) := by
  simp [Fits.Statement, Instr.wellFormed, Instr.operands]
theorem OwnRow.sneReg (x : Nibble) (y : Nibble) : OwnRow.Statement (.sneReg x y) := by
  simp [OwnRow.Statement, opcodeMap, opcodeMapFlow, opcodeMapAlu, opcodeMapMid, opcodeMapF, List.filter, OpcodeRow.selects,
    NibblePat.accepts, encode, mnemonicOf]

theorem Fits.ldI (nnn : Addr12) : Fits.Statement (.ldI nnn) := by
  simp [Fits.Statement, Instr.wellFormed, Instr.operands]
theorem OwnRow.ldI (nnn : Addr12) : OwnRow.Statement (.ldI nnn) := by
  simp [OwnRow.Statement, opcodeMap, opcodeMapFlow, opcodeMapAlu, opcodeMapMid, opcodeMapF, List.filter, OpcodeRow.selects,
    NibblePat.accepts, encode, mnemonicOf]

theorem Fits.jpV0 (nnn : Addr12) : Fits.Statement (.jpV0 nnn) := by
  simp [Fits.Statement, Instr.wellFormed, Instr.operands]
theorem OwnRow.jpV0 (nnn : Addr12) : OwnRow.Statement (.jpV0 nnn) := by
  simp [OwnRow.Statement, opcodeMap, opcodeMapFlow, opcodeMapAlu, opcodeMapMid, opcodeMapF, List.filter, OpcodeRow.selects,
    NibblePat.accepts, encode, mnemonicOf]

theorem Fits.rnd (x : Nibble) (nn : Byte) : Fits.Statement (.rnd x nn) := by
  simp [Fits.Statement, Instr.wellFormed, Instr.operands]
theorem OwnRow.rnd (x : Nibble) (nn : Byte) : OwnRow.Statement (.rnd x nn) := by
  simp [OwnRow.Statement, opcodeMap, opcodeMapFlow, opcodeMapAlu, opcodeMapMid, opcodeMapF, List.filter, OpcodeRow.selects,
    NibblePat.accepts, encode, mnemonicOf]

theorem Fits.drw (x : Nibble) (y : Nibble) (n : Nibble) : Fits.Statement (.drw x y n) := by
  simp [Fits.Statement, Instr.wellFormed, Instr.operands]
theorem OwnRow.drw (x : Nibble) (y : Nibble) (n : Nibble) : OwnRow.Statement (.drw x y n) := by
  simp [OwnRow.Statement, opcodeMap, opcodeMapFlow, opcodeMapAlu, opcodeMapMid, opcodeMapF, List.filter, OpcodeRow.selects,
    NibblePat.accepts, encode, mnemonicOf]

theorem Fits.skp (x : Nibble) : Fits.Statement (.skp x) := by
  simp [Fits.Statement, Instr.wellFormed, Instr.operands]
theorem OwnRow.skp (x : Nibble) : OwnRow.Statement (.skp x) := by
  simp [OwnRow.Statement, opcodeMap, opcodeMapFlow, opcodeMapAlu, opcodeMapMid, opcodeMapF, List.filter, OpcodeRow.selects,
    NibblePat.accepts, encode, mnemonicOf]

theorem Fits.sknp (x : Nibble) : Fits.Statement (.sknp x) := by
  simp [Fits.Statement, Instr.wellFormed, Instr.operands]
theorem OwnRow.sknp (x : Nibble) : OwnRow.Statement (.sknp x) := by
  simp [OwnRow.Statement, opcodeMap, opcodeMapFlow, opcodeMapAlu, opcodeMapMid, opcodeMapF, List.filter, OpcodeRow.selects,
    NibblePat.accepts, encode, mnemonicOf]

theorem Fits.ldVxDT (x : Nibble) : Fits.Statement (.ldVxDT x) := by
  simp [Fits.Statement, Instr.wellFormed, Instr.operands]
theorem OwnRow.ldVxDT (x : Nibble) : OwnRow.Statement (.ldVxDT x) := by
  simp [OwnRow.Statement, opcodeMap, opcodeMapFlow, opcodeMapAlu, opcodeMapMid, opcodeMapF, List.filter, OpcodeRow.selects,
    NibblePat.accepts, encode, mnemonicOf]

theorem Fits.ldVxK (x : Nibble) : Fits.Statement (.ldVxK x) := by
  simp [Fits.Statement, Instr.wellFormed, Instr.operands]
theorem OwnRow.ldVxK (x : Nibble) : OwnRow.Statement (.ldVxK x) := by
  simp [OwnRow.Statement, opcodeMap, opcodeMapFlow, opcodeMapAlu, opcodeMapMid, opcodeMapF, List.filter, OpcodeRow.selects,
    NibblePat.accepts, encode, mnemonicOf]

theorem Fits.ldDTVx (x : Nibble) : Fits.Statement (.ldDTVx x) := by
  simp [Fits.Statement, Instr.wellFormed, Instr.operands]
theorem OwnRow.ldDTVx (x : Nibble) : OwnRow.Statement (.ldDTVx x) := by
  simp [OwnRow.Statement, opcodeMap, opcodeMapFlow, opcodeMapAlu, opcodeMapMid, opcodeMapF, List.filter, OpcodeRow.selects,
    NibblePat.accepts, encode, mnemonicOf]

theorem Fits.ldSTVx (x : Nibble) : Fits.Statement (.ldSTVx x) := by
  simp [Fits.Statement, Instr.wellFormed, Instr.operands]
theorem OwnRow.ldSTVx (x : Nibble) : OwnRow.Statement (.ldSTVx x) := by
  simp [OwnRow.Statement, opcodeMap, opcodeMapFlow, opcodeMapAlu, opcodeMapMid, opcodeMapF, List.filter, OpcodeRow.selects,
    NibblePat.accepts, encode, mnemonicOf]

theorem Fits.addI (x : Nibble) : Fits.Statement (.addI x) := by
  simp [Fits.Statement, Instr.wellFormed, Instr.operands]
theorem OwnRow.addI (x : Nibble) : OwnRow.Statement (.addI x) := by
  simp [OwnRow.Statement, opcodeMap, opcodeMapFlow, opcodeMapAlu, opcodeMapMid, opcodeMapF, List.filter, OpcodeRow.selects,
    NibblePat.accepts, encode, mnemonicOf]

theorem Fits.ldF (x : Nibble) : Fits.Statement (.ldF x) := by
  simp [Fits.Statement, Instr.wellFormed, Instr.operands]
theorem OwnRow.ldF (x : Nibble) : OwnRow.Statement (.ldF x) := by
  simp [OwnRow.Statement, opcodeMap, opcodeMapFlow, opcodeMapAlu, opcodeMapMid, opcodeMapF, List.filter, OpcodeRow.selects,
    NibblePat.accepts, encode, mnemonicOf]

theorem Fits.ldB (x : Nibble) : Fits.Statement (.ldB x) := by
  simp [Fits.Statement, Instr.wellFormed, Instr.operands]
theorem OwnRow.ldB (x : Nibble) : OwnRow.Statement (.ldB x) := by
  simp [OwnRow.Statement, opcodeMap, opcodeMapFlow, opcodeMapAlu, opcodeMapMid, opcodeMapF, List.filter, OpcodeRow.selects,
    NibblePat.accepts, encode, mnemonicOf]

theorem Fits.storeRegs (x : Nibble) : Fits.Statement (.storeRegs x) := by
  simp [Fits.Statement, Instr.wellFormed, Instr.operands]
theorem OwnRow.storeRegs (x : Nibble) : OwnRow.Statement (.storeRegs x) := by
  simp [OwnRow.Statement, opcodeMap, opcodeMapFlow, opcodeMapAlu, opcodeMapMid, opcodeMapF, List.filter, OpcodeRow.selects,
    NibblePat.accepts, encode, mnemonicOf]

theorem Fits.loadRegs (x : Nibble) : Fits.Statement (.loadRegs x) := by
  simp [Fits.Statement, Instr.wellFormed, Instr.operands]
theorem OwnRow.loadRegs (x : Nibble) : OwnRow.Statement (.loadRegs x) := by
  simp [OwnRow.Statement, opcodeMap, opcodeMapFlow, opcodeMapAlu, opcodeMapMid, opcodeMapF, List.filter, OpcodeRow.selects,
    NibblePat.accepts, encode, mnemonicOf]

end Sys2Proof.Laws
end

