-- ==== Sys2Proof/Laws/Step.lean ====
section
/-! SUPPORT. What one step can do, said once, and how a run of steps or transactions unfolds. -/

namespace Sys2Proof.Machine

/-- A step (R212) is one of three: a fetch error, an unmatched word, or the decoded instruction after the driver advance. -/
theorem step_cases (s : State) :
    (s.canFetch = false ∧ step s = .next s.fetchError) ∨
    (s.canFetch = true ∧ ∃ e, decodeWord s.fetched = .error e ∧ step s = .next (s.advance.unknownOpcode s.fetched)) ∨
    (s.canFetch = true ∧ ∃ i, decodeWord s.fetched = .ok i ∧ step s = exec i s.advance) := by
  unfold step
  cases hc : s.canFetch with
  | false => exact .inl ⟨rfl, rfl⟩
  | true =>
    cases hd : decodeWord s.fetched with
    | error e => exact .inr (.inl ⟨rfl, e, rfl, rfl⟩)
    | ok i => exact .inr (.inr ⟨rfl, i, rfl, rfl⟩)

/-- No instruction changes the parameter FONT (R11). -/
theorem exec_font {i : Instr} {s t : State} (h : exec i s = .next t) : t.font = s.font := by
  cases i with
  | ret =>
    rcases s.pop_cases with ⟨_, hp⟩ | ⟨_, _, hp⟩ <;> simp only [exec, execRet, hp] at h <;> cases h <;> rfl
  | call nnn =>
    rcases s.push_cases s.pc with ⟨_, hp⟩ | ⟨_, hp⟩ <;> simp only [exec, execCall, hp] at h <;> cases h <;> rfl
  | skp x | sknp x =>
    rcases s.keyIndex_cases x with ⟨_, hk⟩ | ⟨_, hk⟩ <;> simp only [exec, execSkp, execSknp, hk] at h <;> cases h <;> rfl
  | ldVxK x =>
    rcases lowestPressed_cases s.keys with ⟨_, hk⟩ | ⟨_, _, _, _, hk⟩ <;> simp only [exec, execLdVxK, hk] at h <;> cases h <;> rfl
  | ldB x | storeRegs x | loadRegs x | drw x y n =>
    simp only [exec, execLdB, execStoreRegs, execLoadRegs, execDrw] at h
    split at h <;> cases h <;> rfl
  | _ => cases h; rfl

/-- No transaction changes the parameter FONT (R11). -/
theorem transact_font {tr : Transaction} {s t : State} (h : transact tr s = .next t) : t.font = s.font := by
  cases tr with
  | step =>
    rcases step_cases s with ⟨_, hs⟩ | ⟨_, _, _, hs⟩ | ⟨_, _, _, hs⟩ <;> rw [show transact .step s = step s from rfl, hs] at h
    · cases h; rfl
    · cases h; rfl
    · exact exec_font (s := s.advance) h
  | loadProgram bytes offset => cases h; unfold hostLoadProgram; split <;> rfl
  | _ => cases h; rfl

/-- A run whose first step answers `t` goes on from `t`. -/
theorem run_succ (M : Host.Core) (n : Nat) (s t : M.State) (h : M.step s = .next t) : M.run (n + 1) s = M.run n t := by
  rw [Host.Core.run, h]

/-- A run of transactions whose first answers `t` observes its response, then what the rest observes from `t`. -/
theorem transactAll_cons {tr : Transaction} {s t : State} (h : transact tr s = .next t) {trs : List Transaction}
    {o : Observation} (ho : transactAll trs t = .next o) :
    transactAll (tr :: trs) s = .next ⟨o.final, t.response :: o.responses⟩ := by
  simp only [transactAll, h, ho]

end Sys2Proof.Machine
end

