-- ==== Sys2Proof/Tests/Slice0.lean ====
section
/-! SUPPORT. The model's own tests. Expected results are those of spec/95_test_vectors.md (ids E1 to E10, F, A, M, D, K, H)
and of the worked examples of the rules; each runs ONE step, or one transaction, from a small state. The last part gives,
for every statement that has hypotheses, a state and operands that meet them, at a boundary where there is one. -/

namespace Sys2Proof.Tests

open Sys2Proof Sys2Proof.Machine

/-! ## Helpers -/

/-- The state that an outcome leaves. -/
def after : StepOutcome → State
  | .next s => s
  | _ => State.reset

def completes : StepOutcome → Bool
  | .next _ => true
  | _ => false

theorem next_after {o : StepOutcome} (h : completes o = true) : o = .next (after o) := by
  cases o with
  | next s => rfl
  | fault f => cases f
  | refused r => cases h

/-- The registers named, on top of a state. -/
def withV (l : List (Nibble × Byte)) (s : State) : State := l.foldl (fun s p => s.setV p.1 p.2) s

/-- Bytes in memory, on top of a state. -/
def withMem (a : Nat) (bs : List Byte) (s : State) : State := s.writeBytes a bs

/-- A step on the word `w`, stored at PC. -/
def run (w : Nat) (s : State) : State := after (step (s.withFetchWord 16 w))

/-- S0 of the vectors. -/
abbrev s0 : State := State.reset

/-! ## WellFormed: an ill-formed operand for each check -/

theorem test_wf_refuses_reg_16 : Operand.fits ⟨.reg, 16⟩ = false ∧ Operand.fits ⟨.reg, 15⟩ = true := by decide
theorem test_wf_refuses_byte_256 : Operand.fits ⟨.byte, 256⟩ = false ∧ Operand.fits ⟨.byte, 255⟩ = true := by decide
theorem test_wf_refuses_addr_4096 : Operand.fits ⟨.addr, 4096⟩ = false ∧ Operand.fits ⟨.addr, 4095⟩ = true := by decide
theorem test_wf_refuses_rows_16 : Operand.fits ⟨.rows, 16⟩ = false ∧ Operand.fits ⟨.rows, 0⟩ = true := by decide

/-! ## Decoding: a word of every row, written out from the patterns of R74 -/

theorem test_decode_flow : decodeWord 0x00E0 = .ok .cls ∧ decodeWord 0x00EE = .ok .ret ∧ decodeWord 0x1ABC = .ok (.jp 0xABC) ∧
    decodeWord 0x2ABC = .ok (.call 0xABC) ∧ decodeWord 0x3A7B = .ok (.seByte 0xA 0x7B) ∧
    decodeWord 0x4A7B = .ok (.sneByte 0xA 0x7B) ∧ decodeWord 0x5AB0 = .ok (.seReg 0xA 0xB) ∧
    decodeWord 0x9AB0 = .ok (.sneReg 0xA 0xB) ∧ decodeWord 0xBABC = .ok (.jpV0 0xABC) := by decide
theorem test_decode_alu : decodeWord 0x6A7B = .ok (.ldByte 0xA 0x7B) ∧ decodeWord 0x7A7B = .ok (.addByte 0xA 0x7B) ∧
    decodeWord 0x8AB0 = .ok (.ldReg 0xA 0xB) ∧ decodeWord 0x8AB1 = .ok (.orReg 0xA 0xB) ∧
    decodeWord 0x8AB2 = .ok (.andReg 0xA 0xB) ∧ decodeWord 0x8AB3 = .ok (.xorReg 0xA 0xB) ∧
    decodeWord 0x8AB4 = .ok (.addReg 0xA 0xB) ∧ decodeWord 0x8AB5 = .ok (.subReg 0xA 0xB) ∧
    decodeWord 0x8AB6 = .ok (.shr 0xA 0xB) ∧ decodeWord 0x8AB7 = .ok (.subnReg 0xA 0xB) ∧
    decodeWord 0x8ABE = .ok (.shl 0xA 0xB) ∧ decodeWord 0xCA7B = .ok (.rnd 0xA 0x7B) := by decide
theorem test_decode_rest : decodeWord 0xAABC = .ok (.ldI 0xABC) ∧ decodeWord 0xDAB7 = .ok (.drw 0xA 0xB 0x7) ∧
    decodeWord 0xEA9E = .ok (.skp 0xA) ∧ decodeWord 0xEAA1 = .ok (.sknp 0xA) ∧ decodeWord 0xFA07 = .ok (.ldVxDT 0xA) ∧
    decodeWord 0xFA0A = .ok (.ldVxK 0xA) ∧ decodeWord 0xFA15 = .ok (.ldDTVx 0xA) ∧ decodeWord 0xFA18 = .ok (.ldSTVx 0xA) ∧
    decodeWord 0xFA1E = .ok (.addI 0xA) ∧ decodeWord 0xFA29 = .ok (.ldF 0xA) ∧ decodeWord 0xFA33 = .ok (.ldB 0xA) ∧
    decodeWord 0xFA55 = .ok (.storeRegs 0xA) ∧ decodeWord 0xFA65 = .ok (.loadRegs 0xA) := by decide
/-- Vectors F14, F17, A40, K7, H10 to H14 and the edges of the table of R80. -/
theorem test_decode_unmatched : ([0x0000, 0x00DF, 0x00E1, 0x00EF, 0x0123, 0x5121, 0x512F, 0x8008, 0x800D, 0x800F, 0x912F, 0x9121,
    0xE19F, 0xE09D, 0xE0A2, 0xF000, 0xF006, 0xF066, 0xFFFF] : List Word).all
    (fun w => decodeWord w == .error (.unmatched w)) = true := by decide
theorem test_decode_bytes_high_first : decode [0x6A, 0x42, 0x99] = .ok (.ldByte 0xA 0x42, [0x99]) ∧
    decode [0x6A] = .error .tooShort := by decide
theorem test_decodeTableWord : decodeTableWord 16 0xD124 = some (.drw 0x1 0x2 0x4) ∧ decodeTableWord 16 0x8008 = none := by decide

/-! ## Control flow -/

theorem test_ret_pops : (run 0x00EE { s0 with sp := 1, stack := s0.stack.set 0 0x0345 }).pc = 0x0345 ∧
    (run 0x00EE { s0 with sp := 1, stack := s0.stack.set 0 0x0345 }).sp = 0 := by decide
theorem test_ret_underflow : (run 0x00EE s0).pc = 0x0202 ∧
    (run 0x00EE s0).response = .err ⟨.stackUnderflowError, some 0x200, some 0x00EE⟩ := by decide
theorem test_jp : (run 0x1FFE s0).pc = 0x0FFE ∧ (run 0x1200 s0).pc = 0x0200 := by decide
theorem test_call_pushes : (run 0x2300 s0).pc = 0x0300 ∧ (run 0x2300 s0).sp = 1 ∧ (run 0x2300 s0).stack[0] = 0x0202 := by decide
theorem test_call_overflow : (run 0x2300 { s0 with sp := 16 }).pc = 0x0202 ∧ (run 0x2300 { s0 with sp := 16 }).sp = 16 ∧
    (run 0x2300 { s0 with sp := 16 }).response = .err ⟨.stackOverflowError, some 0x200, some 0x2300⟩ := by decide
theorem test_se_byte : (run 0x3042 (withV [(0, 0x42)] s0)).pc = 0x0204 ∧ (run 0x3042 (withV [(0, 0x41)] s0)).pc = 0x0202 := by
  decide
theorem test_sne_byte : (run 0x4042 (withV [(0, 0x42)] s0)).pc = 0x0202 ∧ (run 0x4042 (withV [(0, 0x41)] s0)).pc = 0x0204 := by
  decide
theorem test_se_reg : (run 0x5120 (withV [(1, 7), (2, 7)] s0)).pc = 0x0204 ∧ (run 0x5120 (withV [(1, 7), (2, 8)] s0)).pc = 0x0202 := by
  decide
theorem test_sne_reg : (run 0x9120 (withV [(1, 7), (2, 7)] s0)).pc = 0x0202 ∧ (run 0x9120 (withV [(1, 7), (2, 8)] s0)).pc = 0x0204 := by
  decide
theorem test_jp_v0_unreduced : (run 0xBFFF (withV [(0, 0xFF)] s0)).pc = 0x10FE ∧ (run 0xB300 (withV [(0, 0x10)] s0)).pc = 0x0310 := by
  decide
/-- F21: a skip at 0xFFE passes the end of memory; F25: an odd PC. -/
theorem test_skip_at_the_end_and_odd_pc : (run 0x3000 { s0 with pc := 0xFFE }).pc = 0x1002 ∧
    (run 0x6A33 { s0 with pc := 0x201 }).getV 0xA = 0x33 := by decide

/-! ## ALU -/

theorem test_ld_byte : (run 0x6A42 s0).getV 0xA = 0x42 := by decide
theorem test_add_byte_wraps : (run 0x7001 (withV [(0, 0xFF), (0xF, 0x07)] s0)).getV 0 = 0 ∧
    (run 0x7001 (withV [(0, 0xFF), (0xF, 0x07)] s0)).getV 0xF = 0x07 := by decide
theorem test_ld_reg : (run 0x8120 (withV [(2, 0x33)] s0)).getV 1 = 0x33 := by decide
theorem test_or : (run 0x8121 (withV [(1, 0x0F), (2, 0xF0), (0xF, 1)] s0)).getV 1 = 0xFF ∧
    (run 0x8121 (withV [(1, 0x0F), (2, 0xF0), (0xF, 1)] s0)).getV 0xF = 1 := by decide
theorem test_and : (run 0x8122 (withV [(1, 0x3C), (2, 0x0F)] s0)).getV 1 = 0x0C := by decide
theorem test_xor : (run 0x8123 (withV [(1, 0x3C), (2, 0x0F)] s0)).getV 1 = 0x33 := by decide
theorem test_add_carry : (run 0x8014 (withV [(0, 0xFF), (1, 0x01)] s0)).getV 0 = 0 ∧
    (run 0x8014 (withV [(0, 0xFF), (1, 0x01)] s0)).getV 0xF = 1 ∧ (run 0x8014 (withV [(0, 1), (1, 1)] s0)).getV 0xF = 0 := by decide
/-- A15, A16. -/
theorem test_add_vf : (run 0x8F14 (withV [(0xF, 0x05), (1, 0xFF)] s0)).getV 0xF = 0x04 ∧
    (run 0x81F4 (withV [(1, 0x10), (0xF, 0xF5)] s0)).getV 1 = 0x05 ∧ (run 0x81F4 (withV [(1, 0x10), (0xF, 0xF5)] s0)).getV 0xF = 1 := by
  decide
/-- A18, A19. -/
theorem test_sub : (run 0x8015 (withV [(0, 5), (1, 3)] s0)).getV 0 = 2 ∧ (run 0x8015 (withV [(0, 5), (1, 3)] s0)).getV 0xF = 1 ∧
    (run 0x8015 (withV [(0, 3), (1, 5)] s0)).getV 0 = 0xFE ∧ (run 0x8015 (withV [(0, 3), (1, 5)] s0)).getV 0xF = 0 := by decide
/-- A20, A21, A22. -/
theorem test_sub_equal_and_vf : (run 0x8015 (withV [(0, 7), (1, 7)] s0)).getV 0xF = 0 ∧
    (run 0x8F15 (withV [(0xF, 0x10), (1, 1)] s0)).getV 0xF = 0x0F ∧ (run 0x81F5 (withV [(1, 1), (0xF, 2)] s0)).getV 1 = 0xFF ∧
    (run 0x81F5 (withV [(1, 1), (0xF, 2)] s0)).getV 0xF = 0 := by decide
theorem test_shr : (run 0x8476 (withV [(4, 5), (7, 0xFF)] s0)).getV 4 = 2 ∧ (run 0x8476 (withV [(4, 5), (7, 0xFF)] s0)).getV 0xF = 1 ∧
    (run 0x8006 (withV [(0, 0x80)] s0)).getV 0 = 0x40 := by decide
theorem test_subn : (run 0x8127 (withV [(1, 3), (2, 5)] s0)).getV 1 = 2 ∧ (run 0x8127 (withV [(1, 3), (2, 5)] s0)).getV 0xF = 1 ∧
    (run 0x8127 (withV [(1, 5), (2, 3)] s0)).getV 1 = 0xFE ∧ (run 0x81F7 (withV [(1, 2), (0xF, 7)] s0)).getV 0xF = 1 := by decide
theorem test_shl : (run 0x840E (withV [(4, 0x81)] s0)).getV 4 = 2 ∧ (run 0x840E (withV [(4, 0x81)] s0)).getV 0xF = 1 ∧
    (run 0x8F0E (withV [(0xF, 0x81)] s0)).getV 0xF = 2 := by decide
/-- A38: nn = 0 gives 0 for every draw; one byte is drawn. -/
theorem test_rnd_zero_mask : ∃ t, exec (.rnd 3 0) s0 = .next t ∧ t.getV 3 = 0 ∧ t.rng = 1 :=
  ⟨_, rfl, by simp [State.getV, State.drawByte], rfl⟩

/-! ## Index register and memory -/

theorem test_ld_i : (run 0xA2F0 s0).iReg = 0x02F0 := by decide
/-- M3, M4. -/
theorem test_add_i : (run 0xF01E (withV [(0, 1)] { s0 with iReg := 0xFFFF })).iReg = 0 ∧
    (run 0xF01E (withV [(0, 1)] { s0 with iReg := 0x0FFF })).iReg = 0x1000 := by decide
/-- M6, M7, M8. -/
theorem test_ld_f : (run 0xF029 (withV [(0, 0x0A)] s0)).iReg = 0x0032 ∧ (run 0xF029 (withV [(0, 0x10)] s0)).iReg = 0x0050 ∧
    (run 0xF029 (withV [(0, 0xFF)] s0)).iReg = 0x04FB := by decide
/-- M12. -/
theorem test_ld_b : (run 0xF033 (withV [(0, 0x7B)] { s0 with iReg := 0x0FFD })).readBytes 0xFFD 3 = [1, 2, 3] ∧
    (run 0xF033 (withV [(0, 0xFF)] { s0 with iReg := 0x300 })).readBytes 0x300 3 = [2, 5, 5] := by decide
/-- M13. -/
theorem test_ld_b_bounds : (run 0xF033 (withV [(0, 0x7B)] { s0 with iReg := 0x0FFE })).response =
    .err ⟨.memoryBoundsError, some 0x200, some 0xF033⟩ ∧
    (run 0xF033 (withV [(0, 0x7B)] { s0 with iReg := 0x0FFE })).readBytes 0xFFD 3 = [0, 0, 0] := by decide
/-- M15. -/
theorem test_store_regs : (run 0xF255 (withV [(0, 1), (1, 2), (2, 3), (3, 4)] { s0 with iReg := 0x300 })).readBytes 0x2FF 5 =
    [0, 1, 2, 3, 0] := by decide
/-- R63: an Fx55 over itself runs whole, and the next fetch there reads what it stored. -/
theorem test_store_over_itself : (run 0xF155 (withV [(0, 0x6A), (1, 0x42)] { s0 with iReg := 0x200 })).response = .ok ∧
    ((run 0xF155 (withV [(0, 0x6A), (1, 0x42)] { s0 with iReg := 0x200 })).atPC 0x200).fetched = 0x6A42 := by decide
/-- M17, M18. -/
theorem test_store_regs_at_the_end : (run 0xFF55 (withV [(0xF, 0x99)] { s0 with iReg := 0xFF0 })).readByte 0xFFF = 0x99 ∧
    (run 0xFF55 { s0 with iReg := 0xFF1 }).response = .err ⟨.memoryBoundsError, some 0x200, some 0xFF55⟩ := by decide
/-- M20. -/
theorem test_load_regs : (run 0xF265 (withV [(3, 0x77)] (withMem 0x300 [0x0A, 0x0B, 0x0C, 0x0D] { s0 with iReg := 0x300 }))).v.toList.take 4 =
    [0x0A, 0x0B, 0x0C, 0x77] := by decide
/-- M21, M22. -/
theorem test_load_regs_font_and_bounds : (run 0xFF65 s0).v.toList =
    [0xF0, 0x90, 0x90, 0x90, 0xF0, 0x20, 0x60, 0x20, 0x20, 0x70, 0xF0, 0x10, 0xF0, 0x80, 0xF0, 0xF0] ∧
    (run 0xF165 { s0 with iReg := 0x0FFF }).response = .err ⟨.memoryBoundsError, some 0x200, some 0xF165⟩ := by decide
/-- A write back to what an unlisted address reads as removes the cell (the canonical form). -/
theorem test_memory_canonical : Memory.write fontTable (Memory.write fontTable [] 0x300 5) 0x300 0 = [] ∧ Memory.write fontTable [] 0 0xF0 = [] ∧
    Memory.write fontTable [] 0x1000 1 = [] ∧ Memory.wf fontTable (Memory.write fontTable (Memory.write fontTable [] 0x300 5) 0x200 6) = true ∧
    Memory.wf fontTable [(5, 0), (5, 1)] = false := by decide

/-! ## Display. The pixel of column c is bit c of its row. -/

/-- D1. -/
theorem test_cls : (run 0x00E0 { s0 with fb := xorPixel (xorPixel s0.fb 0 0 true) 31 63 true }).fb = s0.fb ∧
    (run 0x00E0 s0).dirty = true := by decide
/-- D3: bit 7 is column 0. -/
theorem test_drw_msb_left : (run 0xD001 (withMem 0x300 [0x80] { s0 with iReg := 0x300 })).fb = s0.fb.set 0 1 ∧
    (run 0xD001 (withMem 0x300 [0x80] { s0 with iReg := 0x300 })).getV 0xF = 0 := by decide
/-- D6: both axes wrap. -/
theorem test_drw_wraps : (run 0xD121 (withV [(1, 0x3F), (2, 0x1F)] (withMem 0x300 [0x81] { s0 with iReg := 0x300 }))).fb =
    s0.fb.set 31 0x8000000000000040 := by decide
/-- D4: collision. -/
theorem test_drw_collides : (run 0xD001 (withMem 0x300 [0xC0] { s0 with iReg := 0x300, fb := s0.fb.set 0 1 })).fb = s0.fb.set 0 2 ∧
    (run 0xD001 (withMem 0x300 [0xC0] { s0 with iReg := 0x300, fb := s0.fb.set 0 1 })).getV 0xF = 1 := by decide
/-- D9, D10, D12. -/
theorem test_drw_corners : (run 0xD120 (withV [(0xF, 1)] { s0 with iReg := 0xFFFF })).getV 0xF = 0 ∧
    (run 0xD003 { s0 with iReg := 0xFFE }).response = .err ⟨.memoryBoundsError, some 0x200, some 0xD003⟩ ∧
    (run 0xDF11 (withV [(0xF, 5), (1, 2)] (withMem 0x300 [0x80] { s0 with iReg := 0x300 }))).fb = s0.fb.set 2 0x20 := by decide

/-! ## Keys and timers -/

/-- K1, K2, K5. -/
theorem test_skp : (run 0xE19E (withV [(1, 5)] { s0 with keys := 0x0020 })).pc = 0x0204 ∧
    (run 0xE19E (withV [(1, 5)] { s0 with keys := 0x0010 })).pc = 0x0202 ∧
    (run 0xE19E (withV [(1, 0x10)] s0)).response = .err ⟨.keyIndexError, some 0x200, some 0xE19E⟩ := by decide
/-- K3, K4, K6. -/
theorem test_sknp : (run 0xE1A1 (withV [(1, 5)] { s0 with keys := 0x0020 })).pc = 0x0202 ∧
    (run 0xE1A1 (withV [(1, 5)] s0)).pc = 0x0204 ∧
    (run 0xE1A1 (withV [(1, 0xFF)] s0)).response = .err ⟨.keyIndexError, some 0x200, some 0xE1A1⟩ := by decide
theorem test_ld_vx_dt : (run 0xF307 { s0 with dt := 0x2A }).getV 3 = 0x2A := by decide
/-- K12. -/
theorem test_key_wait_holds : (run 0xF20A (withV [(2, 0x55)] s0)).pc = 0x0200 ∧ (run 0xF20A (withV [(2, 0x55)] s0)).mode = .awaitingKey ∧
    (run 0xF20A (withV [(2, 0x55)] s0)).waitX = 2 ∧ (run 0xF20A (withV [(2, 0x55)] s0)).getV 2 = 0x55 := by decide
/-- K13, K15. -/
theorem test_key_wait_ends : (run 0xF20A { s0 with keys := 0x0220 }).getV 2 = 5 ∧
    (run 0xF20A { s0 with mode := .awaitingKey, waitX := 2, keys := 1 }).mode = .running ∧
    (run 0xF20A { s0 with mode := .awaitingKey, waitX := 2, keys := 1 }).waitX = 2 := by decide
theorem test_ld_dt_vx : (run 0xF315 (withV [(3, 0x3C)] s0)).dt = 0x3C := by decide
theorem test_ld_st_vx : (run 0xF318 (withV [(3, 0x05)] s0)).st = 0x05 := by decide

/-! ## The driver and the host's transactions -/

/-- E10, H10: an unmatched word. -/
theorem test_unmatched : (run 0x8008 (withV [(0, 1)] s0)).response = .err ⟨.unknownOpcodeError, some 0x200, some 0x8008⟩ ∧
    (run 0x8008 (withV [(0, 1)] s0)).pc = 0x0202 ∧ (after (step s0)).response = .err ⟨.unknownOpcodeError, some 0x200, some 0⟩ := by
  decide
/-- F20, F22. -/
theorem test_fetch_error : (after (step { s0 with pc := 0x10FE })).pc = 0x10FE ∧
    (after (step { s0 with pc := 0xFFF })).response = .err ⟨.memoryBoundsError, some 0xFFF, none⟩ := by decide
/-- H2, H3, H4. -/
theorem test_load_bounds : (hostLoadProgram [] 0x1000 s0).response = .ok ∧
    (hostLoadProgram [] 0x1001 s0).response = .err ⟨.capacityError, none, none⟩ ∧
    (hostLoadProgram [1, 2, 3] 0xFFE s0).mem = [] ∧ (hostLoadProgram [1, 2] 0xFFE s0).mem = [(0xFFE, 1), (0xFFF, 2)] := by decide
/-- E9. -/
theorem test_tick : (hostTickTimers { s0 with dt := 3, st := 1 }).dt = 2 ∧ (hostTickTimers { s0 with dt := 3, st := 1 }).st = 0 ∧
    (hostTickTimers s0).dt = 0 := by decide
/-- H5, H7, H8, H9. -/
theorem test_other_transactions : (hostConsumeDrawFlag { s0 with dirty := true }).response = .drawFlag true ∧
    (hostConsumeDrawFlag { s0 with dirty := true }).dirty = false ∧ (hostSetKeys 0x1008 { s0 with keys := 1 }).keys = 0x1008 ∧
    (hostReadStatus { s0 with dt := 5, st := 2, mode := .awaitingKey, waitX := 4 }).response = .status 5 2 .awaitingKey 4 ∧
    (hostReset (run 0x6A42 s0)).block = s0 := by decide
theorem test_error_codes : [ErrorKind.capacityError, .memoryBoundsError, .stackOverflowError, .stackUnderflowError,
    .unknownOpcodeError, .keyIndexError].map errorCode = [1, 2, 3, 4, 5, 6] ∧ modeBit .running = 0 ∧ modeBit .awaitingKey = 1 := by
  decide

/-- R11: another FONT is written by construction and again by reset, and read by Fx65 (R25, M21). -/
theorem test_another_font : (hostReset (run 0xF055 (withV [(0, 0x99)] (State.constructed (Vector.replicate 80 0x7E) 5)))).readBytes 0x04E 3 =
    [0x7E, 0x7E, 0x00] ∧ (run 0xF165 (State.constructed (Vector.replicate 80 0x7E) 5)).getV 1 = 0x7E ∧
    (State.constructed (Vector.replicate 80 0x7E) 5).rng = 5 := by decide
/-- H1, H5: a run keeps the response of each of its transactions (R222). -/
theorem test_run_observes_every_response : (match transactAll [.construct, .loadProgram [0x00, 0xE0], .step, .consumeDrawFlag, .step] s0 with
    | .next o => o.responses
    | _ => []) = [.empty, .ok, .ok, .drawFlag true, .err ⟨.unknownOpcodeError, some 0x202, some 0⟩] := by decide

/-! ## Witnesses: states and operands that meet the hypotheses of each statement that has any, all of them together -/

theorem witness_DecodeOfEncode : (Instr.drw 0xF 0xF 0xF).wellFormed = true ∧ Instr.cls.wellFormed = true ∧
    (Instr.jp 0xFFF).wellFormed = true ∧ (Instr.ldByte 0 0xFF).wellFormed = true := by decide
theorem witness_EncodeOfDecode : decodeWord 0xFF65 = .ok (.loadRegs 0xF) ∧ decodeWord 0x1000 = .ok (.jp 0) := by decide
/-- A value on each side of every edge of the six spaces, and the words that decode. -/
theorem witness_UnmatchedWords :
    ([0x0000, 0x0FFF, 0x5001, 0x8008, 0x800D, 0x800F, 0x900F, 0xE09F, 0xF064, 0xFFFF] : List Word).all
      (fun w => decodeWord w == .error (.unmatched w)) = true ∧
    ([0x00E0, 0x00EE, 0x5000, 0x8007, 0x800E, 0x9FF0, 0xEF9E, 0xE0A1, 0xFF65, 0xF007] : List Word).all
      (fun w => decodeWord w != .error (.unmatched w)) = true := by decide

/-- The last address that a word can be fetched from. -/
theorem witness_StepRuns : (Instr.ldByte 0xA 0x42).wellFormed = true ∧ ({ s0 with pc := 0xFFE } : State).pc.toNat + 1 ≤ 0xFFF ∧
    decode [(withMem 0xFFE [0x6A, 0x42] s0).readByte 0xFFE, (withMem 0xFFE [0x6A, 0x42] s0).readByte 0xFFF] =
      .ok (.ldByte 0xA 0x42, []) := by decide
theorem witness_UnmatchedWordKeeps : ({ s0 with pc := 0xFFE } : State).pc.toNat + 1 ≤ 0xFFF ∧
    ∀ i, decodeWord (wordOfBytes (s0.readByte 0xFFE) (s0.readByte 0xFFF)) ≠ .ok i := by
  refine ⟨by decide, fun i h => ?_⟩
  rw [show decodeWord (wordOfBytes (s0.readByte 0xFFE) (s0.readByte 0xFFF)) = .error (.unmatched 0) by decide] at h
  cases h
theorem witness_FetchOutside : ({ s0 with pc := 0xFFF } : State).pc.toNat + 1 > 0xFFF := by decide
/-- Each row of the table of R230 that an instruction can raise, at its boundary, and the nearest operand that raises
nothing. -/
theorem witness_ErrorsAreExactly :
    s0.check .ret = some .stackUnderflowError ∧ ({ s0 with sp := 1 } : State).check .ret = none ∧
    ({ s0 with sp := 16 } : State).check (.call 0) = some .stackOverflowError ∧ ({ s0 with sp := 15 } : State).check (.call 0) = none ∧
    ({ s0 with iReg := 0xFFE } : State).check (.ldB 0) = some .memoryBoundsError ∧
    ({ s0 with iReg := 0xFFD } : State).check (.ldB 0) = none ∧
    ({ s0 with iReg := 0xFF1 } : State).check (.storeRegs 0xF) = some .memoryBoundsError ∧
    ({ s0 with iReg := 0xFF0 } : State).check (.storeRegs 0xF) = none ∧
    ({ s0 with iReg := 0x1000 } : State).check (.loadRegs 0) = some .memoryBoundsError ∧
    ({ s0 with iReg := 0xFFF } : State).check (.loadRegs 0) = none ∧
    ({ s0 with iReg := 0xFF2 } : State).check (.drw 0 0 0xF) = some .memoryBoundsError ∧
    ({ s0 with iReg := 0xFF1 } : State).check (.drw 0 0 0xF) = none ∧ ({ s0 with iReg := 0xFFFF } : State).check (.drw 0 0 0) = none ∧
    (withV [(0, 0x10)] s0).check (.skp 0) = some .keyIndexError ∧ (withV [(0, 0x0F)] s0).check (.skp 0) = none ∧
    (withV [(0, 0x10)] s0).check (.sknp 0) = some .keyIndexError ∧ (withV [(0, 0x0F)] s0).check (.sknp 0) = none := by decide
/-- A run, and two states before it that agree on the parameters and the record alone. -/
theorem witness_EveryTransactionIsAccepted : ∃ (o : Observation) (u : State), transactAll [.reset, .step] s0 = .next o ∧
    beginsRun [.reset, .step] = true ∧ u ≠ s0 ∧ s0.font = u.font ∧ s0.rng = u.rng ∧ s0.errors = u.errors :=
  ⟨_, { s0 with pc := 0x300 }, rfl, rfl, by decide, rfl, rfl, rfl⟩
/-- Zero memory at 0xFFE: an unmatched word; and an instruction's own check. -/
theorem witness_StepReports : ({ s0 with pc := 0xFFE } : State).pc.toNat + 1 ≤ 0xFFF ∧
    step { s0 with pc := 0xFFE } = .next (after (step { s0 with pc := 0xFFE })) ∧
    (after (step { s0 with pc := 0xFFE })).response = .err ⟨.unknownOpcodeError, some 0xFFE, some 0⟩ ∧
    (run 0x00EE s0).response = .err ⟨.stackUnderflowError, some 0x200, some 0x00EE⟩ :=
  ⟨by decide, next_after (by decide), by decide, by decide⟩

/-- The self-jump, at the last address that one can stand at. -/
theorem witness_JumpWrites : ∃ s : State, s.pc = zext12 0xFFE ∧ s.pc.toNat + 1 ≤ 0xFFF ∧
    wordOfBytes (s.readByte s.pc.toNat) (s.readByte (s.pc.toNat + 1)) = encodeNNN 0x1 0xFFE :=
  ⟨({ s0 with pc := 0xFFE } : State).withFetchWord 16 0x1FFE, by decide, by decide, by decide⟩
theorem witness_ShiftsIgnore : (0xF : Nibble) ≠ 0 ∧ (0 : Nibble) ≠ 0xF := by decide
theorem witness_CallPushes : ({ s0 with sp := 15 } : State).sp.val < 16 := by decide
theorem witness_ReturnPops : 0 < ({ s0 with sp := 1 } : State).sp.val ∧ 0 < ({ s0 with sp := 16 } : State).sp.val := by decide
/-- The last free slot; the state that RET meets has another PC. -/
theorem witness_ReturnUndoesCall : ∃ t u : State, ({ s0 with sp := 15 } : State).sp.val < 16 ∧
    exec (.call 0x300) { s0 with sp := 15 } = .next t ∧ u.pc ≠ t.pc ∧ u.sp = t.sp ∧
    ∀ (j : Nat) (h : j < 16), j < t.sp.val → u.stack[j] = t.stack[j] :=
  ⟨_, { after (exec (.call 0x300) { s0 with sp := 15 }) with pc := 0x345 }, by decide, rfl, by decide, rfl, fun _ _ _ => rfl⟩
theorem witness_NestedCalls : s0.sp.val + (List.replicate 16 ((0x202 : Word), (0x300 : Addr12))).length ≤ 16 ∧
    ({ s0 with sp := 16 } : State).sp.val + ([] : List (Word × Addr12)).length ≤ 16 := by decide

theorem witness_BcdStores : ({ s0 with iReg := 0xFFD } : State).iReg.toNat + 2 ≤ 0xFFF := by decide
theorem witness_BlockStore : ({ s0 with iReg := 0xFF0 } : State).iReg.toNat + (0xF : Nibble).toNat ≤ 0xFFF := by decide
theorem witness_BlockLoad : ({ s0 with iReg := 0xFFF } : State).iReg.toNat + (0 : Nibble).toNat ≤ 0xFFF := by decide
/-- Each clause at the last addresses of memory; V0, V1 hold the word 6A42, LD VA, 0x42. -/
theorem witness_NextFetch_store : ∃ s t : State, s.iReg.toNat + (1 : Nibble).toNat ≤ 0xFFF ∧
    (0 : Nibble).toNat < (1 : Nibble).toNat ∧ exec (.storeRegs 1) s = .next t ∧
    decodeWord (wordOfBytes (s.getV 0) (s.getV (0 + 1))) = .ok (.ldByte 0xA 0x42) :=
  ⟨withV [(0, 0x6A), (1, 0x42)] { s0 with iReg := 0xFFE }, _, by decide, by decide, next_after (by decide), by decide⟩
theorem witness_NextFetch_bcd : ({ s0 with iReg := 0xFFD } : State).iReg.toNat + 2 ≤ 0xFFF ∧
    exec (.ldB 0) { s0 with iReg := 0xFFD } = .next (after (exec (.ldB 0) { s0 with iReg := 0xFFD })) :=
  ⟨by decide, next_after (by decide)⟩
theorem witness_NextFetch_load : 0xFFE + ([0x6A, 0x42] : List Byte).length ≤ 4096 ∧ 1 < ([0x6A, 0x42] : List Byte).length ∧
    transact (.loadProgram [0x6A, 0x42] 0xFFE) s0 = .next (hostLoadProgram [0x6A, 0x42] 0xFFE s0) :=
  ⟨by decide, by decide, rfl⟩
/-- F155 stored over itself, at the last address that a word can be fetched from. -/
theorem witness_NextFetch_self : ∃ s : State, s.pc.toNat + 1 ≤ 0xFFF ∧ decodeWord s.fetched = .ok (.storeRegs 1) ∧
    s.iReg = s.pc ∧ s.iReg.toNat + (1 : Nibble).toNat ≤ 0xFFF :=
  ⟨({ s0 with pc := 0xFFE, iReg := 0xFFE } : State).withFetchWord 16 0xF155, by decide, by decide, by decide, by decide⟩
/-- Both ways to meet the hypothesis: no rows with I outside memory, and the last rows in memory. -/
theorem witness_DrawXors : (0 : Nibble).toNat = 0 ∧ ({ s0 with iReg := 0xFF1 } : State).iReg.toNat + (0xF : Nibble).toNat - 1 ≤ 0xFFF := by
  decide
/-- The first glyph on an empty screen: drawn, with a set bit at its top left. -/
theorem witness_DrawingTwice : (0 : Nibble) ≠ 0xF ∧ exec (.drw 0 0 1) s0 = .next (after (exec (.drw 0 0 1) s0)) ∧
    (after (exec (.drw 0 0 1) s0)).response = .ok ∧ (∀ row col, pixel s0.fb row col = false) ∧ ∃ row col, s0.Lit 0 0 1 row col :=
  ⟨by decide, next_after (by decide), by decide, fun row col => by simp [pixel, State.reset, State.constructed], 0, 0, 0, 0, by decide⟩

theorem witness_KeySkips : ((withV [(0, 0x0F)] s0).getV 0).toNat ≤ 0x0F := by decide
/-- Both clauses: keys 5 and 9 pressed, 5 the lowest; key 15 alone; no key. -/
theorem witness_KeyWaitTakes :
    ((0x0220 : BitVec 16).getLsbD (5 : Nibble).toNat = true ∧
      ∀ j : Nibble, j.toNat < (5 : Nibble).toNat → (0x0220 : BitVec 16).getLsbD j.toNat = false) ∧
    ((0x8000 : BitVec 16).getLsbD (0xF : Nibble).toNat = true ∧
      ∀ j : Nibble, j.toNat < (0xF : Nibble).toNat → (0x8000 : BitVec 16).getLsbD j.toNat = false) ∧
    s0.keys = 0 := by decide
theorem witness_KeyWaitHolds : ({ s0 with pc := 0xFFE } : State).pc.toNat + 1 ≤ 0xFFF ∧ s0.keys = 0 ∧
    decodeWord (wordOfBytes ((withMem 0xFFE [0xF3, 0x0A] s0).readByte 0xFFE) ((withMem 0xFFE [0xF3, 0x0A] s0).readByte 0xFFF)) =
      .ok (.ldVxK 3) := by decide

theorem witness_OnlyBcdAndBlockStore : (∀ x, Instr.loadRegs 0xF ≠ .ldB x) ∧ (∀ x, Instr.loadRegs 0xF ≠ .storeRegs x) ∧
    exec (.loadRegs 0xF) s0 = .next (after (exec (.loadRegs 0xF) s0)) :=
  ⟨by decide, by decide, next_after (by decide)⟩
/-- Both clauses: an instruction that is neither, and DIRTY set. -/
theorem witness_OnlyClearAndDraw :
    (Instr.ldB 0 ≠ .cls ∧ (∀ x y n, Instr.ldB 0 ≠ .drw x y n) ∧ exec (.ldB 0) s0 = .next (after (exec (.ldB 0) s0))) ∧
    (({ s0 with dirty := true } : State).dirty = true ∧
      exec .cls { s0 with dirty := true } = .next (after (exec .cls { s0 with dirty := true }))) :=
  ⟨⟨by decide, (by intro x y n h; cases h), next_after (by decide)⟩, by decide, next_after (by decide)⟩
theorem witness_OnlyCallAndReturn : (∀ nnn, Instr.jp 0x300 ≠ .call nnn) ∧ Instr.jp 0x300 ≠ .ret ∧
    exec (.jp 0x300) s0 = .next (after (exec (.jp 0x300) s0)) ∧ (∀ nnn, Instr.ret ≠ .call nnn) ∧
    exec .ret { s0 with sp := 1 } = .next (after (exec .ret { s0 with sp := 1 })) :=
  ⟨(by intro n h; cases h), by decide, next_after (by decide), (by intro n h; cases h), next_after (by decide)⟩
/-- A step on an instruction that sets neither timer, both timers running. -/
theorem witness_StepsLeave : ∃ s t : State, s.dt = 3 ∧ s.st = 2 ∧ step s = .next t ∧
    (∀ x, decodeWord s.fetched ≠ .ok (.ldDTVx x)) ∧ (∀ x, decodeWord s.fetched ≠ .ok (.ldSTVx x)) :=
  ⟨({ s0 with dt := 3, st := 2 } : State).withFetchWord 16 0xF307, _, by decide, by decide, rfl, by decide, by decide⟩
theorem witness_OnlyThree : exec (.storeRegs 0xF) s0 = .next (after (exec (.storeRegs 0xF) s0)) ∧
    (∀ x, Instr.storeRegs 0xF ≠ .addI x) ∧ (∀ x, Instr.storeRegs 0xF ≠ .ldF x) ∧
    (∀ nnn, Instr.storeRegs 0xF ≠ .ldI nnn) ∧ (∀ x nn, Instr.storeRegs 0xF ≠ .rnd x nn) :=
  ⟨next_after (by decide), by decide, by decide, (by intro n h; cases h), (by intro x n h; cases h)⟩
theorem witness_RegistersChange : mayWriteV 0xE (.addReg 0 1) = false ∧ mayWriteV 0xF (.addByte 0 1) = false ∧
    mayWriteV 3 (.loadRegs 2) = false ∧ exec (.addReg 0 1) s0 = .next (after (exec (.addReg 0 1) s0)) ∧
    exec (.addByte 0 1) s0 = .next (after (exec (.addByte 0 1) s0)) ∧
    exec (.loadRegs 2) s0 = .next (after (exec (.loadRegs 2) s0)) :=
  ⟨by decide, by decide, by decide, next_after (by decide), next_after (by decide), next_after (by decide)⟩
theorem witness_OnlyControlFlow : mayWritePC (.addReg 0 1) = false ∧ exec (.addReg 0 1) s0 = .next (after (exec (.addReg 0 1) s0)) :=
  ⟨by decide, next_after (by decide)⟩
/-- Both sides of the equivalence. -/
theorem witness_Awaiting : ∃ s t u v : State, s.pc.toNat + 1 ≤ 0xFFF ∧ step s = .next t ∧ t.mode = .awaitingKey ∧
    u.pc.toNat + 1 ≤ 0xFFF ∧ step u = .next v ∧ v.mode = .running :=
  ⟨s0.withFetchWord 16 0xF20A, _, ({ s0 with keys := 1, mode := .awaitingKey } : State).withFetchWord 16 0xF20A, _,
    by decide, rfl, by decide, by decide, rfl, by decide⟩

/-- Both clauses at their edge: the last program that fits, and one byte more. -/
theorem witness_LoadPlaces : (([1, 2] : List Byte).length : Int) ≤ 4096 - ((0xFFE : Nat) : Int) ∧
    (([1, 2, 3] : List Byte).length : Int) > 4096 - ((0xFFE : Nat) : Int) ∧
    (([] : List Byte).length : Int) > 4096 - ((0x1001 : Nat) : Int) := by decide

theorem witness_EveryStepKeeps : s0.Inv ∧ step s0 = .next (after (step s0)) :=
  ⟨⟨by decide, by decide, fun j h => by simp [State.reset, State.constructed]⟩, next_after (by decide)⟩
theorem witness_EveryTransactionKeeps : s0.Inv ∧ transact .step s0 = .next (after (step s0)) :=
  ⟨witness_EveryStepKeeps.1, witness_EveryStepKeeps.2⟩
theorem witness_Reachable : Reachable (after (step s0)) := .after .step (.start fontTable 0) (show step s0 = .next (after (step s0)) from next_after (by decide))
/-- A state that waits at its Fx0A, and a step there. -/
theorem witness_AwaitingStands : ∃ s t : State, s.mode = .awaitingKey ∧ s.WaitsAtKeyWait ∧
    (∀ bytes offset, Transaction.step ≠ .loadProgram bytes offset) ∧ transact .step s = .next t :=
  ⟨run 0xF20A s0, after (step (run 0xF20A s0)), by decide, fun _ => by decide, (by intro b o h; cases h),
    show step (run 0xF20A s0) = .next (after (step (run 0xF20A s0))) from next_after (by decide)⟩

end Sys2Proof.Tests
end

/-! PROOFS. The state after construction (70_reset_and_hazards.md R260) as the accessors read it, for every FONT and seed,
and the statement that lists its values. -/

namespace Sys2Proof.Machine

section Constructed

variable (font : Font) (seed : Nat)

/-! ## What an unlisted address reads as -/

theorem initialByte_of_lt {a : Nat} (h : a < 80) : initialByte font a = font[a] := dif_pos h

theorem initialByte_of_le {a : Nat} (h : 80 ≤ a) : initialByte font a = 0 := dif_neg (Nat.not_lt.mpr h)

/-! ## The constructed state -/

@[simp] theorem State.getV_constructed (x : Nibble) : (State.constructed font seed).getV x = 0 :=
  Vector.getElem_replicate x.isLt

@[simp] theorem State.getElem_stack_constructed (j : Nat) (h : j < 16) :
    (State.constructed font seed).stack[j] = 0 :=
  Vector.getElem_replicate h

@[simp] theorem pixel_blankScreen (row : Fin 32) (col : Fin 64) : pixel blankScreen row col = false := by
  simp [pixel, blankScreen]

@[simp] theorem State.fb_constructed : (State.constructed font seed).fb = blankScreen := rfl

/-- A range of bytes inside the font region reads, after construction, as that stretch of FONT (R25). -/
theorem State.readBytes_constructed_font {a n : Nat} (h : a + n ≤ 80) :
    (State.constructed font seed).readBytes a n = (font.toList.drop a).take n := by
  refine List.ext_getElem (by simp; omega) fun k hk _ => ?_
  have hn : k < n := by simpa using hk
  rw [State.getElem_readBytes, State.readByte_constructed, initialByte_of_lt font (by omega)]
  simp

end Constructed

/-- The default FONT is the list of R26. -/
theorem toList_fontTable : fontTable.toList = fontBytes := rfl

/-- Settles O50: field by field, with memory read through `initialByte`, and the glyph bytes as the two halves of the
default FONT. -/
theorem resetHoldsTheListedValues : Obligations.ResetHoldsTheListedValues := by
  refine ⟨fun font seed => ⟨State.getV_constructed font seed, rfl, rfl, rfl, State.getElem_stack_constructed font seed,
    rfl, rfl, rfl, fun row col => ?screen, rfl, rfl, rfl, fun a h => ?glyphs, fun a h _ => ?zeros⟩, rfl, ?low, ?high⟩
  case screen => rw [State.fb_constructed, pixel_blankScreen]
  case glyphs => rw [State.readByte_constructed, initialByte_of_lt font h]
  case zeros => rw [State.readByte_constructed, initialByte_of_le font h]
  case low =>
    rw [State.reset, State.readBytes_constructed_font _ _ (by decide), toList_fontTable]
    rfl
  case high =>
    rw [State.reset, State.readBytes_constructed_font _ _ (by decide), toList_fontTable]
    rfl

end Sys2Proof.Machine

/-! PROOFS. What the execute phase may write, said once (`Effect`, `exec_effect`), and from it the frames of spec
10_state.md (R20 to R35) and the invariants of R37, which every transaction keeps. -/

namespace Sys2Proof.Machine

/-! ## Bounds of the addresses that go to PC -/

theorem toNat_zext12_le (nnn : Addr12) : (zext12 nnn).toNat ≤ 0xFFF := by
  have := nnn.isLt
  simp only [zext12, BitVec.toNat_setWidth]
  omega

/-- The target of Bnnn is an exact sum (R107). -/
theorem toNat_zext8_add_zext12_le (b : Byte) (nnn : Addr12) : (zext8 b + zext12 nnn).toNat ≤ 0x10FE := by
  have hb := b.isLt
  have hn := nnn.isLt
  simp only [zext8, zext12, BitVec.toNat_add, BitVec.toNat_setWidth]
  omega

/-! ## What an instruction may write -/

/-- What the execute phase of an instruction may make of the state `s`, one constructor per way of ending: the update as
Machine/Ops.lean names it, and the instructions that may end so. -/
inductive Effect (s : State) : Instr → State → Prop
  | raises {i : Instr} (k : ErrorKind) : Effect s i (s.raise k i)
  | clears : Effect s .cls (s.display blankScreen).complete
  | draws (x y n : Nibble) :
      Effect s (.drw x y n) ((s.display (s.drawn x y n).1).setV 15 (flagByte (s.drawn x y n).2)).complete
  | returns (h : s.sp.val - 1 < 16) :
      Effect s .ret (({ s with sp := ⟨s.sp.val - 1, by omega⟩ } : State).setPC s.stack[s.sp.val - 1]).complete
  | calls (nnn : Addr12) (h : s.sp.val < 16) :
      Effect s (.call nnn) (({ s with
        stack := s.stack.set s.sp.val s.pc h, sp := ⟨s.sp.val + 1, Nat.succ_lt_succ h⟩ } : State).setPC
          (zext12 nnn)).complete
  | jumps {i : Instr} {w : Word} (hi : mayWritePC i = true) (hw : w.toNat ≤ 0x10FE) : Effect s i (s.setPC w).complete
  | skips {i : Instr} {c : Bool} (hi : mayWritePC i = true) : Effect s i (s.skipIf c).complete
  | awaits (x : Nibble) : Effect s (.ldVxK x) (s.awaitKey x).complete
  | loads {i : Instr} {x : Nibble} {b : Byte} (hi : mayWriteV x i = true) : Effect s i (s.setV x b).complete
  | flags {i : Instr} {x : Nibble} {r : AluResult} (hx : mayWriteV x i = true) (hf : mayWriteV 15 i = true) :
      Effect s i (s.setFlagged x r).complete
  | randomizes (x : Nibble) (nn : Byte) :
      Effect s (.rnd x nn) (s.drawByte.2.setV x (s.drawByte.1 &&& nn)).complete
  | loadsI (nnn : Addr12) : Effect s (.ldI nnn) (s.setI (zext12 nnn)).complete
  | addsI (x : Nibble) : Effect s (.addI x) (s.setI (BitVec.ofNat 16 (s.iReg.toNat + (s.getV x).toNat))).complete
  | pointsAtGlyph (x : Nibble) : Effect s (.ldF x) (s.setI (BitVec.ofNat 16 ((s.getV x).toNat * 5))).complete
  | setsDelay (x : Nibble) : Effect s (.ldDTVx x) (s.setDT (s.getV x)).complete
  | setsSound (x : Nibble) : Effect s (.ldSTVx x) (s.setST (s.getV x)).complete
  | storesDigits (x : Nibble) : Effect s (.ldB x) (s.writeBytes s.base (decimalDigits (s.getV x))).complete
  | storesRegs (x : Nibble) : Effect s (.storeRegs x) (s.writeBytes s.base (s.regsUpTo x)).complete
  | loadsRegs (x : Nibble) :
      Effect s (.loadRegs x) (s.setRegs (loadFrom s.v 0 (s.bytesAtI (x.toNat + 1)))).complete

/-- Every instruction ends in one of the ways of `Effect`. -/
theorem exec_effect {i : Instr} {s t : State} (h : exec i s = .next t) : Effect s i t := by
  cases i with
  | cls => cases h; exact .clears
  | ret =>
    rcases s.pop_cases with ⟨_, hp⟩ | ⟨_, h16, hp⟩ <;> simp only [exec, execRet, hp] at h <;> cases h
    · exact .raises _
    · exact .returns h16
  | call nnn =>
    rcases s.push_cases s.pc with ⟨_, hp⟩ | ⟨h16, hp⟩ <;> simp only [exec, execCall, hp] at h <;> cases h
    · exact .raises _
    · exact .calls nnn h16
  | jp nnn => cases h; exact .jumps rfl (Nat.le_trans (toNat_zext12_le nnn) (by decide))
  | jpV0 nnn => cases h; exact .jumps rfl (toNat_zext8_add_zext12_le _ nnn)
  | seByte | sneByte | seReg | sneReg => cases h; exact .skips rfl
  | skp x | sknp x =>
    rcases s.keyIndex_cases x with ⟨_, hk⟩ | ⟨_, hk⟩ <;> simp only [exec, execSkp, execSknp, hk] at h <;> cases h
    · exact .raises _
    · exact .skips rfl
  | ldVxK x =>
    rcases lowestPressed_cases s.keys with ⟨_, hk⟩ | ⟨_, _, _, _, hk⟩ <;> simp only [exec, execLdVxK, hk] at h <;>
      cases h
    · exact .awaits x
    · exact .loads (decide_eq_true rfl)
  | ldByte | addByte | ldReg | orReg | andReg | xorReg | ldVxDT => cases h; exact .loads (decide_eq_true rfl)
  | addReg | subReg | shr | subnReg | shl =>
    cases h
    exact .flags (decide_eq_true (.inl rfl)) (decide_eq_true (.inr rfl))
  | rnd x nn => cases h; exact .randomizes x nn
  | ldI nnn => cases h; exact .loadsI nnn
  | addI x => cases h; exact .addsI x
  | ldF x => cases h; exact .pointsAtGlyph x
  | ldDTVx x => cases h; exact .setsDelay x
  | ldSTVx x => cases h; exact .setsSound x
  | drw x y n =>
    simp only [exec, execDrw] at h
    split at h <;> cases h
    · exact .draws x y n
    · exact .raises _
  | ldB x =>
    simp only [exec, execLdB] at h
    split at h <;> cases h
    · exact .storesDigits x
    · exact .raises _
  | storeRegs x =>
    simp only [exec, execStoreRegs] at h
    split at h <;> cases h
    · exact .storesRegs x
    · exact .raises _
  | loadRegs x =>
    simp only [exec, execLoadRegs] at h
    split at h <;> cases h
    · exact .loadsRegs x
    · exact .raises _

/-! ## Frames of the execute phase -/

/-- Settles O43, by the ways an instruction can end: only CLS and DRW end with `display`, which sets DIRTY. -/
theorem onlyClearAndDrawTouchTheScreen : Obligations.OnlyClearAndDrawTouchTheScreen := by
  intro i s t h
  cases exec_effect h with
  | clears => exact ⟨fun hcls => absurd rfl hcls, fun _ => rfl⟩
  | draws x y n => exact ⟨fun _ hdrw => absurd rfl (hdrw x y n), fun _ => rfl⟩
  | _ => exact ⟨fun _ _ => ⟨rfl, rfl⟩, id⟩

/-- Settles O44, by the ways an instruction can end: CALL alone writes a slot, and RET moves SP only. -/
theorem onlyCallAndReturnTouchTheStack : Obligations.OnlyCallAndReturnTouchTheStack := by
  intro i s t h hcall
  cases exec_effect h with
  | calls nnn => exact absurd rfl (hcall nnn)
  | returns => exact ⟨rfl, fun hret => absurd rfl hret⟩
  | _ => exact ⟨rfl, fun _ => rfl⟩

/-- Settles O46, by the ways an instruction can end: three of them set I, and one draws. -/
theorem onlyThreeInstructionsWriteTheIndex : Obligations.OnlyThreeInstructionsWriteTheIndex := by
  intro i s t h
  cases exec_effect h with
  | loadsI nnn => exact ⟨fun hld => absurd rfl (hld nnn), fun _ => rfl⟩
  | addsI x => exact ⟨fun _ hadd => absurd rfl (hadd x), fun _ => rfl⟩
  | pointsAtGlyph x => exact ⟨fun _ _ hldF => absurd rfl (hldF x), fun _ => rfl⟩
  | randomizes x nn => exact ⟨fun _ _ _ => rfl, fun hrnd => absurd rfl (hrnd x nn)⟩
  | _ => exact ⟨fun _ _ _ => rfl, fun _ => rfl⟩

/-- Settles O48, by the ways an instruction can end: those that write PC are open only to the PC row of R35. -/
theorem onlyControlFlowMovesThePC : Obligations.OnlyControlFlowMovesThePC := by
  intro i s t hi h
  cases exec_effect h with
  | jumps hpc | skips hpc => rw [hi] at hpc; cases hpc
  | returns | calls | awaits => cases hi
  | _ => rfl

/-- A register that an instruction may not write is not one that it may. -/
theorem ne_of_mayWriteV {i : Instr} {x j : Nibble} (hx : mayWriteV x i = true) (hj : mayWriteV j i = false) :
    x ≠ j := by
  rintro rfl
  rw [hj] at hx
  cases hx

/-- A flagged result leaves alone every register but its destination and VF (R126 to R130). -/
theorem State.getV_setFlagged_ne (s : State) {x j : Nibble} (r : AluResult) (hx : x ≠ j) (hf : 15 ≠ j) :
    (s.setFlagged x r).getV j = s.getV j := by
  rw [State.setFlagged, State.getV_setV_ne _ _ hx, State.getV_setV_ne _ _ hf]

/-- `loadFrom` writes no register past its list (R155). -/
theorem State.getV_setRegs_loadFrom (s : State) (bs : List Byte) {j : Nibble} (h : bs.length ≤ j.toNat) :
    (s.setRegs (loadFrom s.v 0 bs)).getV j = s.getV j := by
  rw [State.getV, State.getV, State.setRegs_v, getElem_loadFrom, dif_neg (by omega)]

/-- Settles O47, by the ways an instruction can end: each that writes registers names them by `mayWriteV`. -/
theorem registersChangeOnlyAsDestinationOrFlag : Obligations.RegistersChangeOnlyAsDestinationOrFlag := by
  intro i s t j hj h
  cases exec_effect h with
  | loads hx => exact s.getV_setV_ne _ (ne_of_mayWriteV hx hj)
  | flags hx hf => exact s.getV_setFlagged_ne _ (ne_of_mayWriteV hx hj) (ne_of_mayWriteV hf hj)
  | draws x y n => exact (s.display _).getV_setV_ne _ (ne_of_mayWriteV (i := .drw x y n) rfl hj)
  | randomizes x nn => exact s.drawByte.2.getV_setV_ne _ (ne_of_mayWriteV (i := .rnd x nn) (decide_eq_true rfl) hj)
  | loadsRegs x =>
    have hxj : x.toNat < j.toNat := Nat.lt_of_not_le (of_decide_eq_false hj)
    exact s.getV_setRegs_loadFrom _ (by rw [State.bytesAtI, State.length_readBytes]; omega)
  | _ => rfl

/-! ## Frames of a step -/

theorem exec_keys {i : Instr} {s t : State} (h : exec i s = .next t) : t.keys = s.keys := by
  cases exec_effect h <;> rfl

theorem exec_dt {i : Instr} {s t : State} (hi : ∀ x, i ≠ .ldDTVx x) (h : exec i s = .next t) : t.dt = s.dt := by
  cases exec_effect h with
  | setsDelay x => exact absurd rfl (hi x)
  | _ => rfl

theorem exec_st {i : Instr} {s t : State} (hi : ∀ x, i ≠ .ldSTVx x) (h : exec i s = .next t) : t.st = s.st := by
  cases exec_effect h with
  | setsSound x => exact absurd rfl (hi x)
  | _ => rfl

/-- Settles O45: a step that executes nothing writes neither, and the driver advance writes neither. -/
theorem stepsLeaveKeysAndTimersAlone : Obligations.StepsLeaveKeysAndTimersAlone := by
  intro s t h
  rcases step_cases s with ⟨_, hs⟩ | ⟨_, _, _, hs⟩ | ⟨_, i, hd, hs⟩ <;> rw [hs] at h
  · cases h; exact ⟨rfl, fun _ => rfl, fun _ => rfl⟩
  · cases h; exact ⟨rfl, fun _ => rfl, fun _ => rfl⟩
  · rw [hd]
    exact ⟨exec_keys (s := s.advance) h, fun hi => exec_dt (s := s.advance) (fun x hx => hi x (congrArg _ hx)) h,
      fun hi => exec_st (s := s.advance) (fun x hx => hi x (congrArg _ hx)) h⟩

/-! ## The invariants after construction -/

theorem State.inv_constructed (font : Font) (seed : Nat) : (State.constructed font seed).Inv where
  memory := Memory.wf_constructed seed
  pc := (by decide : (0x0200 : Word).toNat ≤ 0x10FE)
  stack j hj := by rw [State.getElem_stack_constructed]; decide

/-- A state in MODE Running waits for no key. -/
theorem State.waitsAtKeyWait_of_running {s : State} (h : s.mode = .running) : s.WaitsAtKeyWait := by
  intro hm
  rw [h] at hm
  cases hm

/-- Settles O57: the constructed state lists no cell, runs, and has an empty stack. -/
theorem resetMeetsTheInvariants : Obligations.ResetMeetsTheInvariants :=
  ⟨State.inv_constructed fontTable 0, State.waitsAtKeyWait_of_running rfl,
    fun font seed => ⟨State.inv_constructed font seed, State.waitsAtKeyWait_of_running rfl⟩⟩

/-! ## The invariants of memory, PC and stack over transactions -/

theorem State.inv_writeBytes {s : State} (hs : s.Inv) (a : Nat) (bs : List Byte) : (s.writeBytes a bs).Inv :=
  ⟨Memory.wf_writeBytes bs s.mem a hs.memory, hs.pc, hs.stack⟩

/-- A push of a bounded word keeps every slot bounded (R102). -/
theorem State.StackBounded.set {s : State} (hs : s.StackBounded) {k : Nat} (hk : k < 16) {w : Word}
    (hw : w.toNat ≤ 0x1000) (j : Nat) (hj : j < 16) : ((s.stack.set k w hk)[j]).toNat ≤ 0x1000 := by
  rw [Vector.getElem_set]
  split
  · exact hw
  · exact hs j hj

/-- The driver advance keeps the invariant: the last word that can be fetched lies at 0xFFE (R52). -/
theorem State.inv_advance {s : State} (hs : s.Inv) (hc : s.canFetch = true) : s.advance.Inv := by
  have hpc := s.advance_pc_toNat hc
  have hA := s.canFetch_iff.mp hc
  exact ⟨hs.memory, by omega, hs.stack⟩

/-- An instruction keeps the invariant from any state in which PC is the A + 2 of a word that was fetched: a skip, a call
and the rollback of the key wait start from it. -/
theorem exec_inv {i : Instr} {s t : State} (hs : s.Inv) (hlo : 2 ≤ s.pc.toNat) (hhi : s.pc.toNat ≤ 0x1000)
    (h : exec i s = .next t) : t.Inv := by
  have two : (2 : Word).toNat = 2 := rfl
  cases exec_effect h with
  | jumps _ hw => exact ⟨hs.memory, hw, hs.stack⟩
  | returns h16 => exact ⟨hs.memory, Nat.le_trans (hs.stack _ h16) (by decide), hs.stack⟩
  | calls nnn h16 => exact ⟨hs.memory, Nat.le_trans (toNat_zext12_le nnn) (by decide), hs.stack.set h16 hhi⟩
  | skips =>
    refine ⟨hs.memory, ?_, hs.stack⟩
    simp only [State.complete_pc, State.skipIf_pc]
    split
    · rw [BitVec.toNat_add]; omega
    · omega
  | awaits x =>
    refine ⟨hs.memory, ?_, hs.stack⟩
    rw [State.complete_pc, State.awaitKey_pc, BitVec.toNat_sub]
    omega
  | storesDigits | storesRegs => exact ⟨(State.inv_writeBytes hs _ _).memory, hs.pc, hs.stack⟩
  | _ => exact ⟨hs.memory, hs.pc, hs.stack⟩

/-- Settles O58: the three kinds of step, the executing one by `exec_inv` from the advanced PC. -/
theorem everyStepKeepsTheInvariant : Obligations.EveryStepKeepsTheInvariant := by
  intro s t hs h
  rcases step_cases s with ⟨_, hstep⟩ | ⟨hc, _, _, hstep⟩ | ⟨hc, i, _, hstep⟩ <;> rw [hstep] at h
  · cases h
    exact ⟨hs.memory, hs.pc, hs.stack⟩
  · cases h
    have ha := State.inv_advance hs hc
    exact ⟨ha.memory, ha.pc, ha.stack⟩
  · have hpc := s.advance_pc_toNat hc
    have hA := s.canFetch_iff.mp hc
    exact exec_inv (State.inv_advance hs hc) (by omega) (by omega) h

/-- Every transaction keeps the invariant; a load writes memory only, within its bounds or not at all (R58). -/
theorem transact_inv {tr : Transaction} {s t : State} (hs : s.Inv) (h : transact tr s = .next t) : t.Inv := by
  cases tr with
  | step => exact everyStepKeepsTheInvariant s t hs h
  | construct | reset =>
    cases h
    have hc := State.inv_constructed s.font s.rng
    exact ⟨hc.memory, hc.pc, hc.stack⟩
  | loadProgram bytes offset =>
    cases h
    unfold hostLoadProgram
    split
    · exact ⟨(State.inv_writeBytes hs _ _).memory, hs.pc, hs.stack⟩
    · exact ⟨hs.memory, hs.pc, hs.stack⟩
  | _ => cases h; exact ⟨hs.memory, hs.pc, hs.stack⟩

theorem Reachable.inv {s : State} (h : Reachable s) : s.Inv := by
  induction h with
  | start font seed => exact State.inv_constructed font seed
  | after tr _ ht ih => exact transact_inv ih ht

/-- A memory in its canonical form lists only addresses of the memory image. -/
theorem Memory.lt_of_mem_of_wfFrom {font : Font} {m : Memory} {lo : Nat} (hm : Memory.wfFrom font lo m = true) :
    ∀ c ∈ m, c.1 < Config.memSize := by
  induction m generalizing lo with
  | nil => simp
  | cons c m ih =>
    obtain ⟨a, b⟩ := c
    simp only [Memory.wfFrom, Bool.and_eq_true, decide_eq_true_eq] at hm
    obtain ⟨⟨⟨_, ha⟩, _⟩, hrest⟩ := hm
    exact List.forall_mem_cons.mpr ⟨ha, ih hrest⟩

/-- Settles O59: `transact_inv`, and its consequence along the runs from construction. -/
theorem reachableStatesMeetTheInvariant : Obligations.ReachableStatesMeetTheInvariant :=
  ⟨fun _ _ _ => transact_inv, fun s h => ⟨h.inv, Nat.le_of_lt_succ s.sp.isLt, fun c hc =>
    Nat.le_of_lt_succ (Memory.lt_of_mem_of_wfFrom h.inv.memory c hc)⟩⟩

/-! ## The key wait over transactions -/

/-- An instruction leaves MODE as it is, unless it is an Fx0A that found no key pressed (R194). -/
theorem exec_mode {i : Instr} {s t : State} (h : exec i s = .next t) :
    t.mode = s.mode ∨ ∃ x, i = .ldVxK x ∧ t = (s.awaitKey x).complete := by
  cases exec_effect h with
  | awaits x => exact .inr ⟨x, rfl, rfl⟩
  | _ => exact .inl rfl

/-- The rollback of the key wait takes back the driver advance (R194), so the next fetch reads the same Fx0A. -/
theorem State.waitsAtKeyWait_awaitKey {s : State} {x : Nibble} (hc : s.canFetch = true)
    (hd : decodeWord s.fetched = .ok (.ldVxK x)) : (s.advance.awaitKey x).complete.WaitsAtKeyWait := by
  have hpc : (s.advance.awaitKey x).complete.pc = s.pc := BitVec.add_sub_cancel s.pc 2
  intro _
  rw [State.canFetch, State.fetched, hpc]
  exact ⟨hc, hd⟩

/-- A step keeps the key wait: a fetch error changes none of it, and after any other step either MODE is Running or an
Fx0A has just rolled PC back to itself (R212). -/
theorem step_waitsAtKeyWait {s t : State} (hs : s.WaitsAtKeyWait) (h : step s = .next t) : t.WaitsAtKeyWait := by
  rcases step_cases s with ⟨_, hstep⟩ | ⟨_, _, _, hstep⟩ | ⟨hc, i, hd, hstep⟩ <;> rw [hstep] at h
  · cases h
    exact hs
  · cases h
    exact State.waitsAtKeyWait_of_running rfl
  · rcases exec_mode h with hm | ⟨x, rfl, rfl⟩
    · exact State.waitsAtKeyWait_of_running hm
    · exact State.waitsAtKeyWait_awaitKey hc hd

/-- Settles O60: a step by `step_waitsAtKeyWait`; construct and reset leave MODE Running; the rest write none of PC,
memory, MODE and WAIT_X. -/
theorem awaitingStandsAtItsKeyWait : Obligations.AwaitingStandsAtItsKeyWait := by
  intro tr s t hs hload h
  cases tr with
  | step => exact step_waitsAtKeyWait hs h
  | loadProgram bytes offset => exact absurd rfl (hload bytes offset)
  | construct | reset => cases h; exact State.waitsAtKeyWait_of_running rfl
  | _ => cases h; exact hs

end Sys2Proof.Machine

/-! PROOFS. The step driver as two equations (50_host_interface.md R212), the memory image as fetches, stores and
program loads see it (20_memory.md R52 to R65), and the statements about them. -/

namespace Sys2Proof.Machine

/-! ## The step driver -/

theorem step_of_not_canFetch {s : State} (h : s.canFetch = false) : step s = .next s.fetchError := by
  simp [step, h]

theorem step_of_decodeWord {s : State} {i : Instr} (hc : s.canFetch = true) (hd : decodeWord s.fetched = .ok i) :
    step s = exec i s.advance := by
  simp only [step, hc, hd, if_true]

/-- Two bytes decode to an instruction, with none left over, exactly when their word does (R52, R70). -/
theorem decode_pair_eq_ok_iff {hi lo : Byte} {i : Instr} :
    decode [hi, lo] = .ok (i, []) ↔ decodeWord (wordOfBytes hi lo) = .ok i := by
  cases hw : decodeWord (wordOfBytes hi lo) <;> simp [decode, hw]

/-- Settles O6: the word at PC is the word of the two bytes there, and the driver advance is the update named. -/
theorem stepRunsTheDecodedInstruction : Obligations.StepRunsTheDecodedInstruction := by
  intro s i _ hpc hd
  exact step_of_decodeWord (s.canFetch_iff.mpr hpc) (decode_pair_eq_ok_iff.mp hd)

/-- Settles O8: the fetch check fails, and its error report is the whole step. -/
theorem fetchOutsideMemoryChangesNothing : Obligations.FetchOutsideMemoryChangesNothing := by
  intro s hpc
  have hc : s.canFetch = false := by rw [← Bool.not_eq_true, State.canFetch_iff]; omega
  exact step_of_not_canFetch hc

/-! ## Who writes memory -/

/-- Settles O42, by the ways an instruction can end: `writeBytes` belongs to Fx33 and Fx55. -/
theorem onlyBcdAndBlockStoreWriteMemory : Obligations.OnlyBcdAndBlockStoreWriteMemory := by
  intro i s t hbcd hstore h
  cases exec_effect h with
  | storesDigits x => exact absurd rfl (hbcd x)
  | storesRegs x => exact absurd rfl (hstore x)
  | _ => exact ⟨rfl, fun _ => rfl⟩

/-! ## What the writers of memory leave -/

theorem hostLoadProgram_of_fits (s : State) {bytes : List Byte} {offset : Nat} (h : offset + bytes.length ≤ 4096) :
    hostLoadProgram bytes offset s = (s.writeBytes offset bytes).respond .ok :=
  if_pos ((inMemory_iff offset bytes.length).mpr h)

theorem hostLoadProgram_of_not_fits (s : State) {bytes : List Byte} {offset : Nat} (h : 4096 < offset + bytes.length) :
    hostLoadProgram bytes offset s = s.report ⟨.capacityError, none, none⟩ :=
  if_neg fun hin => Nat.not_le.mpr h ((inMemory_iff offset bytes.length).mp hin)

/-- Settles O52: the capacity check of R58 in natural numbers, then `writeBytes` inside and outside its range. -/
theorem loadPlacesTheBytesOrRefuses : Obligations.LoadPlacesTheBytesOrRefuses := by
  intro s bytes offset
  refine ⟨_, rfl, fun hgt => ?refuses, fun hle => ?places⟩
  case refuses =>
    rw [hostLoadProgram_of_not_fits s (by omega)]
    rfl
  case places =>
    have hfits : offset + bytes.length ≤ 4096 := by omega
    rw [hostLoadProgram_of_fits s hfits]
    exact ⟨fun k hk => s.readByte_writeBytes_inside offset k bytes hk hfits,
      fun a ha => s.readByte_writeBytes_outside offset a bytes ha, rfl⟩

@[simp] theorem length_decimalDigits (b : Byte) : (decimalDigits b).length = 3 := rfl

@[simp] theorem State.length_regsUpTo (s : State) (x : Nibble) : (s.regsUpTo x).length = x.toNat + 1 := by
  have hx := x.isLt
  simp only [State.regsUpTo, List.length_take, Vector.length_toList]
  omega

/-- The k-th byte that Fx55 stores is Vk (R154). -/
theorem State.getElem_regsUpTo (s : State) {x k : Nibble} (h : k.toNat < (s.regsUpTo x).length) :
    (s.regsUpTo x)[k.toNat] = s.getV k := by
  simp [State.regsUpTo, State.getV]

theorem exec_ldB_of_inRange {s : State} {x : Nibble} (h : s.iReg.toNat + 2 ≤ 0xFFF) :
    exec (.ldB x) s = .next (s.writeBytes s.base (decimalDigits (s.getV x))).complete :=
  if_pos ((s.rangeOk_iff 3).mpr (.inr (by omega)))

theorem exec_storeRegs_of_inRange {s : State} {x : Nibble} (h : s.iReg.toNat + x.toNat ≤ 0xFFF) :
    exec (.storeRegs x) s = .next (s.writeBytes s.base (s.regsUpTo x)).complete :=
  if_pos ((s.rangeOk_iff (x.toNat + 1)).mpr (.inr (by omega)))

/-- After an Fx55 in range, the byte at I + k is Vk (R154). -/
theorem readByte_of_exec_storeRegs {s t : State} {x k : Nibble} (h : s.iReg.toNat + x.toNat ≤ 0xFFF)
    (hk : k.toNat ≤ x.toNat) (ht : exec (.storeRegs x) s = .next t) :
    t.readByte (s.iReg.toNat + k.toNat) = s.getV k := by
  rw [exec_storeRegs_of_inRange h] at ht
  cases ht
  have hlen : k.toNat < (s.regsUpTo x).length := by rw [State.length_regsUpTo]; omega
  have hfits : s.base + (s.regsUpTo x).length ≤ Config.memSize := by
    rw [State.length_regsUpTo]
    exact Nat.succ_le_succ h
  exact (s.readByte_writeBytes_inside s.base k.toNat _ hlen hfits).trans (s.getElem_regsUpTo hlen)

/-! ## The next fetch after a write -/

theorem State.FetchReads.of_readByte {s : State} {a : Nat} {b : Byte} (ha : a ≤ 0xFFF) (h : s.readByte a = b) :
    s.FetchReads a b :=
  h ▸ s.fetchReads_readByte ha

/-- The next fetch reads every byte of a range that was written (R63). -/
theorem State.fetchReads_writeBytes (s : State) {a k : Nat} {bs : List Byte} (hk : k < bs.length)
    (h : a + bs.length ≤ 4096) : (s.writeBytes a bs).FetchReads (a + k) bs[k] :=
  .of_readByte (by omega) (s.readByte_writeBytes_inside a k bs hk h)

theorem fetchReads_of_exec_storeRegs {s t : State} {x k : Nibble} (h : s.iReg.toNat + x.toNat ≤ 0xFFF)
    (hk : k.toNat ≤ x.toNat) (ht : exec (.storeRegs x) s = .next t) :
    t.FetchReads (s.iReg.toNat + k.toNat) (s.getV k) :=
  .of_readByte (by omega) (readByte_of_exec_storeRegs h hk ht)

/-- Each digit that Fx33 writes is read by the next fetch of its address. -/
theorem fetchReads_of_exec_ldB {s t : State} {x : Nibble} (h : s.iReg.toNat + 2 ≤ 0xFFF)
    (ht : exec (.ldB x) s = .next t) (k : Nat) (hk : k < (decimalDigits (s.getV x)).length) :
    t.FetchReads (s.iReg.toNat + k) (decimalDigits (s.getV x))[k] := by
  rw [exec_ldB_of_inRange h] at ht
  cases ht
  exact s.fetchReads_writeBytes (a := s.base) hk (by rw [length_decimalDigits, State.base]; omega)

theorem fetchReads_of_loadProgram {s t : State} {bytes : List Byte} {offset : Nat}
    (h : offset + bytes.length ≤ 4096) (ht : transact (.loadProgram bytes offset) s = .next t) (k : Nat)
    (hk : k < bytes.length) : t.FetchReads (offset + k) bytes[k] := by
  rw [transact, hostLoadProgram_of_fits s h] at ht
  cases ht
  exact s.fetchReads_writeBytes hk h

/-- A step with PC at `p` runs the instruction that the two bytes at `p` and `p + 1` decode to (R52, R212). -/
theorem step_atPC {s : State} {p : Nat} {i : Instr} (hp : p + 1 ≤ 0xFFF)
    (hd : decodeWord (wordOfBytes (s.readByte p) (s.readByte (p + 1))) = .ok i) :
    step (s.atPC p) = exec i { s with pc := BitVec.ofNat 16 (p + 2), mode := .running } := by
  have hc : (s.atPC p).canFetch = true := by
    rw [State.canFetch_iff, State.atPC, BitVec.toNat_ofNat]
    omega
  rw [BitVec.ofNat_add]
  exact step_of_decodeWord hc (by rwa [State.fetched_atPC s (by omega)])

/-- Settles O34: one `fetchReads` lemma for each of the three writers; the stored word by `step_atPC` on the two
registers that Fx55 put there; the self-overlap as a step whose execute phase is that Fx55, with I at its own address. -/
theorem nextFetchSeesTheStore : Obligations.NextFetchSeesTheStore := by
  refine fun s t => ⟨fun x k => fetchReads_of_exec_storeRegs, fun x h ht => ?digits,
    fun bytes offset => fetchReads_of_loadProgram, fun x k i h hk ht hd => ?storedWord,
    fun x hpc hd hI h => ?itself⟩
  case digits =>
    have digit := fetchReads_of_exec_ldB h ht
    exact ⟨digit 0 (by simp), digit 1 (by simp), digit 2 (by simp)⟩
  case storedWord =>
    have hk1 : (k + 1).toNat = k.toNat + 1 := by
      have hx := x.isLt
      rw [BitVec.toNat_add, show (1 : Nibble).toNat = 1 from rfl]
      omega
    refine step_atPC (by omega) ?_
    rwa [readByte_of_exec_storeRegs h (by omega) ht, Nat.add_assoc, ← hk1,
      readByte_of_exec_storeRegs h (by omega) ht]
  case itself =>
    have hstore := exec_storeRegs_of_inRange (s := s.advance) h
    refine ⟨_, (step_of_decodeWord (s.canFetch_iff.mpr hpc) hd).trans hstore, rfl, fun k hk => ?_⟩
    rw [← hI]
    exact fetchReads_of_exec_storeRegs (s := s.advance) h hk hstore

end Sys2Proof.Machine

/-! PROOFS. The decoder and the encoder (30_encoding.md R70 to R84): each row of the opcode map selects exactly the
words that the encoder gives its instructions, so that decoding and encoding undo each other. -/

namespace Sys2Proof

/-! ## A word and its fields -/

/-- A word is its four nibbles (R70, R71). -/
@[simp] theorem wordOfNibbles_fields (w : Word) :
    wordOfNibbles (opField w) (xField w) (yField w) (nField w) = w := by
  have hxop : opField w ++ xField w = w.extractLsb' 8 8 := BitVec.extractLsb'_append_extractLsb'_eq_extractLsb' rfl
  have hyxop : w.extractLsb' 8 8 ++ yField w = w.extractLsb' 4 12 :=
    BitVec.extractLsb'_append_extractLsb'_eq_extractLsb' rfl
  have hall : w.extractLsb' 4 12 ++ nField w = w.extractLsb' 0 16 :=
    BitVec.extractLsb'_append_extractLsb'_eq_extractLsb' rfl
  rw [wordOfNibbles, hxop, hyxop, hall, BitVec.extractLsb'_eq_self]

theorem nnField_eq_append (w : Word) : nnField w = yField w ++ nField w :=
  (BitVec.extractLsb'_append_extractLsb'_eq_extractLsb' (x := w) (start₁ := 0) (len₁ := 4) rfl).symm

theorem nnnField_eq_append (w : Word) : nnnField w = xField w ++ nnField w :=
  (BitVec.extractLsb'_append_extractLsb'_eq_extractLsb' (x := w) (start₁ := 0) (len₁ := 8) rfl).symm

theorem encodeXNN_append (op x y n : Nibble) : encodeXNN op x (y ++ n) = wordOfNibbles op x y n := by
  rw [wordOfNibbles, BitVec.append_assoc (x₁ := op ++ x), BitVec.cast_eq, encodeXNN]

theorem encodeNNN_append (op x : Nibble) (nn : Byte) : encodeNNN op (x ++ nn) = encodeXNN op x nn := by
  rw [encodeXNN, BitVec.append_assoc, BitVec.cast_eq, encodeNNN]

theorem encodeXNN_nnField (op x : Nibble) (w : Word) :
    encodeXNN op x (nnField w) = wordOfNibbles op x (yField w) (nField w) := by
  rw [nnField_eq_append, encodeXNN_append]

theorem encodeNNN_nnnField (op : Nibble) (w : Word) :
    encodeNNN op (nnnField w) = wordOfNibbles op (xField w) (yField w) (nField w) := by
  rw [nnnField_eq_append, encodeNNN_append, encodeXNN_nnField]

/-- Two words are equal exactly when their nibbles are. -/
theorem wordOfNibbles_eq_iff {a b c d : Nibble} {w : Word} :
    wordOfNibbles a b c d = w ↔ a = opField w ∧ b = xField w ∧ c = yField w ∧ d = nField w := by
  constructor
  · rintro rfl
    simp
  · rintro ⟨rfl, rfl, rfl, rfl⟩
    exact wordOfNibbles_fields w

/-! ## What a row selects -/

/-- The value of a position of a pattern, when a field letter stands for `v` (R12). -/
def NibblePat.fill : NibblePat → Nibble → Nibble
  | .digit d, _ => d
  | .any, v => v

theorem NibblePat.accepts_iff (p : NibblePat) (v : Nibble) : p.accepts v = true ↔ p.fill v = v := by
  cases p with
  | digit d => exact decide_eq_true_iff.trans eq_comm
  | any => exact iff_of_true rfl rfl

/-- The word of a row's pattern, with the nibbles of `w` at its field letters. -/
def OpcodeRow.fill (r : OpcodeRow) (w : Word) : Word :=
  wordOfNibbles (r.op.fill (opField w)) (r.x.fill (xField w)) (r.y.fill (yField w)) (r.n.fill (nField w))

/-- A row selects the words that its pattern leaves as they are (R75). -/
theorem OpcodeRow.selects_iff_fill (r : OpcodeRow) (w : Word) : r.selects w = true ↔ r.fill w = w := by
  simp only [OpcodeRow.selects, OpcodeRow.fill, Bool.and_eq_true, NibblePat.accepts_iff, wordOfNibbles_eq_iff,
    and_assoc]

/-- The encoder is written from the same patterns as the rows (R74): row by row, an instruction's word is its pattern
with the nibbles of the fields it was built from. -/
theorem encode_build (w : Word) : ∀ r ∈ opcodeMap, encode (r.build w) = r.fill w := by
  simp [opcodeMap, opcodeMapFlow, opcodeMapAlu, opcodeMapMid, opcodeMapF, OpcodeRow.fill, NibblePat.fill, encode,
    encodeNNN_nnnField, encodeXNN_nnField, wordOfNibbles]

theorem selects_iff_encode_build {r : OpcodeRow} (hr : r ∈ opcodeMap) (w : Word) :
    r.selects w = true ↔ encode (r.build w) = w := by
  rw [r.selects_iff_fill, encode_build w r hr]

/-- Every instruction is built from its own word by a row of the map, which lists the rows in the order of the
constructors (R74). -/
theorem exists_build_encode (i : Instr) : ∃ r ∈ opcodeMap, r.build (encode i) = i := by
  suffices h : ∃ r, opcodeMap[i.ctorIdx]? = some r ∧ r.build (encode i) = i by
    obtain ⟨r, hr, hbuild⟩ := h
    exact ⟨r, List.mem_of_getElem? hr, hbuild⟩
  cases i <;> exact ⟨_, rfl, by simp [encode]⟩

/-! ## The rows are disjoint -/

/-- Two fixed digits that differ. -/
def NibblePat.clashes : NibblePat → NibblePat → Bool
  | .digit d, .digit e => decide (d ≠ e)
  | _, _ => false

/-- Two rows whose patterns differ in a digit that both fix. -/
def OpcodeRow.clashes (r q : OpcodeRow) : Bool :=
  r.op.clashes q.op || r.x.clashes q.x || r.y.clashes q.y || r.n.clashes q.n

theorem NibblePat.clashes_eq_false {p q : NibblePat} {v : Nibble} (hp : p.accepts v = true) (hq : q.accepts v = true) :
    p.clashes q = false := by
  cases p with
  | any => rfl
  | digit d =>
    cases q with
    | any => rfl
    | digit e =>
      have hd : v = d := of_decide_eq_true hp
      have he : v = e := of_decide_eq_true hq
      exact decide_eq_false (not_not.mpr (hd.symm.trans he))

/-- Rows that select the same word do not clash. -/
theorem OpcodeRow.clashes_eq_false {r q : OpcodeRow} {w : Word} (hr : r.selects w = true) (hq : q.selects w = true) :
    r.clashes q = false := by
  simp only [OpcodeRow.selects, Bool.and_eq_true] at hr hq
  obtain ⟨⟨⟨hop, hx⟩, hy⟩, hn⟩ := hr
  obtain ⟨⟨⟨hop', hx'⟩, hy'⟩, hn'⟩ := hq
  simp only [OpcodeRow.clashes, NibblePat.clashes_eq_false hop hop', NibblePat.clashes_eq_false hx hx',
    NibblePat.clashes_eq_false hy hy', NibblePat.clashes_eq_false hn hn', Bool.or_false]

/-- Any two rows of the map clash (R75). -/
theorem opcodeMap_pairwise_clashes : opcodeMap.Pairwise fun r q => r.clashes q = true := by decide

/-- Settles O5: two rows that select a word would clash nowhere, and any two rows of the map clash. -/
theorem noWordMatchesTwoRows : Obligations.NoWordMatchesTwoRows := by
  intro w
  have hpair := opcodeMap_pairwise_clashes.filter fun r => r.selects w
  have hsel : ∀ r ∈ opcodeMap.filter fun r => r.selects w, r.selects w = true :=
    fun r hr => (List.mem_filter.mp hr).2
  match hrows : opcodeMap.filter fun r => r.selects w with
  | [] | [_] => simp [hrows]
  | r :: q :: rows =>
    rw [hrows] at hpair hsel
    have hclash : r.clashes q = true := List.rel_of_pairwise_cons hpair (.head _)
    rw [OpcodeRow.clashes_eq_false (hsel r (.head _)) (hsel q (.tail _ (.head _)))] at hclash
    cases hclash

/-- The row that selects a word is the only one. -/
theorem eq_of_selects {r q : OpcodeRow} {w : Word} (hr : r ∈ opcodeMap) (hq : q ∈ opcodeMap)
    (hrw : r.selects w = true) (hqw : q.selects w = true) : r = q := by
  have hr' : r ∈ opcodeMap.filter fun r => r.selects w := List.mem_filter.mpr ⟨hr, hrw⟩
  have hq' : q ∈ opcodeMap.filter fun r => r.selects w := List.mem_filter.mpr ⟨hq, hqw⟩
  have hpos := List.length_pos_of_mem hr'
  obtain ⟨p, hp⟩ := List.length_eq_one_iff.mp (Nat.le_antisymm (noWordMatchesTwoRows w) hpos)
  rw [hp, List.mem_singleton] at hr' hq'
  exact hr'.trans hq'.symm

/-! ## What decoding answers -/

/-- Decoding against rows (R75, R84): no row selects the word and it is unmatched, or it is what a row selecting it
builds. -/
theorem decodeRows_cases (rows : List OpcodeRow) (w : Word) :
    ((∀ r ∈ rows, r.selects w = false) ∧ decodeRows rows w = .error (.unmatched w)) ∨
    ∃ r ∈ rows, r.selects w = true ∧ decodeRows rows w = .ok (r.build w) := by
  induction rows with
  | nil => exact .inl ⟨by simp, rfl⟩
  | cons r rows ih =>
    cases hr : r.selects w with
    | true => exact .inr ⟨r, .head _, hr, if_pos hr⟩
    | false =>
      have hrest : decodeRows (r :: rows) w = decodeRows rows w := if_neg (by simp [hr])
      rw [hrest]
      rcases ih with ⟨hnone, hd⟩ | ⟨q, hq, hsel, hd⟩
      · exact .inl ⟨List.forall_mem_cons.mpr ⟨hr, hnone⟩, hd⟩
      · exact .inr ⟨q, .tail _ hq, hsel, hd⟩

theorem decodeWord_eq_unmatched_iff (w : Word) :
    decodeWord w = .error (.unmatched w) ↔ ∀ r ∈ opcodeMap, r.selects w = false := by
  rcases decodeRows_cases opcodeMap w with ⟨hnone, hd⟩ | ⟨r, hr, hsel, hd⟩
  · exact iff_of_true hd hnone
  · refine iff_of_false (fun h => ?_) fun h => ?_
    · cases hd.symm.trans h
    · cases hsel.symm.trans (h r hr)

/-- A row that selects a word decides what it decodes to, as no other row selects it. -/
theorem decodeWord_of_selects {r : OpcodeRow} {w : Word} (hr : r ∈ opcodeMap) (hsel : r.selects w = true) :
    decodeWord w = .ok (r.build w) := by
  rcases decodeRows_cases opcodeMap w with ⟨hnone, _⟩ | ⟨q, hq, hqsel, hd⟩
  · cases hsel.symm.trans (hnone r hr)
  · rw [eq_of_selects hr hq hsel hqsel]
    exact hd

/-- Decoding undoes encoding: the row that builds an instruction from its own word selects that word. -/
theorem decodeWord_encode (i : Instr) : decodeWord (encode i) = .ok i := by
  obtain ⟨r, hr, hbuild⟩ := exists_build_encode i
  have hsel : r.selects (encode i) = true := (selects_iff_encode_build hr _).mpr (congrArg encode hbuild)
  rw [decodeWord_of_selects hr hsel, hbuild]

/-- Settles O2: `decodeWord_encode`, on the word and on its two bytes. -/
theorem decodeOfEncodeIsTheInstruction : Obligations.DecodeOfEncodeIsTheInstruction := by
  intro i rest _
  have hword := decodeWord_encode i
  exact ⟨hword, by rw [decode, wordOfBytes_bytes, hword]⟩

/-- Settles O3: the row that selects the word encodes it. -/
theorem encodeOfDecodeIsTheWord : Obligations.EncodeOfDecodeIsTheWord := by
  intro w i h
  rcases decodeRows_cases opcodeMap w with ⟨_, hd⟩ | ⟨r, hr, hsel, hd⟩
  · cases hd.symm.trans h
  · cases hd.symm.trans h
    exact (selects_iff_encode_build hr w).mp hsel

/-- Settles O1: each word is the encoder's word of its instruction. -/
theorem tableWordsDecode : Obligations.TableWordsDecode :=
  ⟨decodeWord_encode .cls, decodeWord_encode .ret, decodeWord_encode (.jp 0x234), decodeWord_encode (.call 0x300),
    decodeWord_encode (.seByte 0x3 0x10), decodeWord_encode (.sneByte 0x3 0x11), decodeWord_encode (.seReg 0x1 0x2),
    decodeWord_encode (.ldByte 0xA 0x42), decodeWord_encode (.addByte 0x1 0x20), decodeWord_encode (.addReg 0x1 0x2),
    decodeWord_encode (.shr 0x4 0x7), decodeWord_encode (.sneReg 0x1 0x2), decodeWord_encode (.ldI 0x2F0),
    decodeWord_encode (.jpV0 0x300), decodeWord_encode (.rnd 0x3 0x0F), decodeWord_encode (.drw 0x1 0x2 0x4),
    decodeWord_encode (.skp 0x5), decodeWord_encode (.sknp 0x5), decodeWord_encode (.ldVxK 0x3),
    decodeWord_encode (.loadRegs 0x2)⟩

/-! ## The unmatched words -/

/-- A word is one given word exactly when its four nibbles are (R70). -/
theorem word_eq_iff (w u : Word) :
    w = u ↔ opField w = u.extractLsb' 12 4 ∧ xField w = u.extractLsb' 8 4 ∧ yField w = u.extractLsb' 4 4 ∧
      nField w = u.extractLsb' 0 4 := by
  rw [← wordOfNibbles_fields u, eq_comm, wordOfNibbles_eq_iff, wordOfNibbles_fields]
  simp only [eq_comm, opField, xField, yField, nField]

/-- The field `nn` of a word is one given byte exactly when the two low nibbles are (R71). -/
theorem nnField_eq_iff (w : Word) (b : Byte) :
    nnField w = b ↔ yField w = b.extractLsb' 4 4 ∧ nField w = b.extractLsb' 0 4 := by
  constructor
  · rintro rfl
    rw [nnField_eq_append, BitVec.extractLsb'_append_eq_left, BitVec.extractLsb'_append_eq_right]
    exact ⟨rfl, rfl⟩
  · rintro ⟨hy, hn⟩
    rw [nnField_eq_append, hy, hn]
    exact (BitVec.extractLsb'_append_extractLsb'_eq_extractLsb' (x := b) (start₁ := 0) (len₁ := 4) rfl).trans
      BitVec.extractLsb'_eq_self

/-- The digits N for which 8xyN is no instruction are all but those of the eight rows and of SHL (R74). -/
theorem mem_unusedAlu_iff : ∀ n : Nibble, n ∈ ([0x8, 0x9, 0xA, 0xB, 0xC, 0xD, 0xF] : List Nibble) ↔
    n ∉ ([0x0, 0x1, 0x2, 0x3, 0x4, 0x5, 0x6, 0x7, 0xE] : List Nibble) := by decide

theorem mem_allNibbles : ∀ a : Nibble,
    a ∈ ([0x0, 0x1, 0x2, 0x3, 0x4, 0x5, 0x6, 0x7, 0x8, 0x9, 0xA, 0xB, 0xC, 0xD, 0xE, 0xF] : List Nibble) := by decide

/-- No row selects a word: the opcode map read family by family, each with the digits that its rows leave (R74, R80). -/
theorem decodeWord_eq_unmatched_iff_families (w : Word) : decodeWord w = .error (.unmatched w) ↔
    (opField w = 0x0 → xField w = 0x0 → yField w = 0xE → nField w ∉ ([0x0, 0xE] : List Nibble)) ∧
    opField w ≠ 0x1 ∧ opField w ≠ 0x2 ∧ opField w ≠ 0x3 ∧ opField w ≠ 0x4 ∧
    (opField w = 0x5 → nField w ≠ 0x0) ∧ opField w ≠ 0x6 ∧ opField w ≠ 0x7 ∧
    (opField w = 0x8 → nField w ∉ ([0x0, 0x1, 0x2, 0x3, 0x4, 0x5, 0x6, 0x7, 0xE] : List Nibble)) ∧
    (opField w = 0x9 → nField w ≠ 0x0) ∧ opField w ≠ 0xA ∧ opField w ≠ 0xB ∧ opField w ≠ 0xC ∧ opField w ≠ 0xD ∧
    (opField w = 0xE → nnField w ∉ ([0x9E, 0xA1] : List Byte)) ∧
    (opField w = 0xF → nnField w ∉ ([0x07, 0x0A, 0x15, 0x18, 0x1E, 0x29, 0x33, 0x55, 0x65] : List Byte)) := by
  simp [decodeWord_eq_unmatched_iff, opcodeMap, opcodeMapFlow, opcodeMapAlu, opcodeMapMid, opcodeMapF,
    OpcodeRow.selects, NibblePat.accepts, Bool.and_eq_false_imp, nnField_eq_iff, imp_and, and_assoc]

/-- Settles O4: `decodeWord_eq_unmatched_iff_families` at each value of the first digit; a word that is not unmatched is
one that a row builds. -/
theorem unmatchedWordsAreTheListedSpaces : Obligations.UnmatchedWordsAreTheListedSpaces := by
  intro w
  refine ⟨?spaces, fun hmatched => ?decodes⟩
  case decodes =>
    rcases decodeRows_cases opcodeMap w with ⟨_, hd⟩ | ⟨r, _, _, hd⟩
    · exact absurd hd hmatched
    · exact ⟨_, hd⟩
  case spaces =>
    rw [decodeWord_eq_unmatched_iff_families, mem_unusedAlu_iff]
    have hop := mem_allNibbles (opField w)
    simp only [List.mem_cons, List.not_mem_nil, or_false] at hop
    rcases hop with h | h | h | h | h | h | h | h | h | h | h | h | h | h | h | h <;>
      simp [h, word_eq_iff, imp_and]

end Sys2Proof

/-! PROOFS. A step on an unmatched word (R80, R212), and the shifts, whose y field is decoded and not used (R76). -/

namespace Sys2Proof.Machine

/-- Settles O7: of the three kinds of step, the one whose word decodes to no instruction; the reported address takes
back the driver advance. -/
theorem unmatchedWordKeepsOnlyTheAdvance : Obligations.UnmatchedWordKeepsOnlyTheAdvance := by
  rintro s w hpc rfl hunmatched
  have hcan := s.canFetch_iff.mpr hpc
  have haddr : s.advance.pc - 2 = s.pc := BitVec.add_sub_cancel s.pc 2
  rcases step_cases s with ⟨hc, _⟩ | ⟨_, _, _, hstep⟩ | ⟨_, i, hd, _⟩
  · cases hc.symm.trans hcan
  · rw [hstep, State.unknownOpcode, haddr]
    rfl
  · exact absurd hd (hunmatched i)

@[simp] theorem State.getV_setFlagged_same (s : State) (x : Nibble) (r : AluResult) :
    (s.setFlagged x r).getV x = r.value :=
  (s.setV 15 r.flag).getV_setV_same x r.value

/-- VF after a flagged result: the flag, unless the result overwrites it (R15, R141). -/
theorem State.getV_setFlagged_flag (s : State) (x : Nibble) (r : AluResult) :
    (s.setFlagged x r).getV 0xF = if x = 0xF then r.value else r.flag := by
  split
  case isTrue hx => rw [hx, State.getV_setFlagged_same]
  case isFalse hx => rw [State.setFlagged, State.getV_setV_ne _ _ hx, State.getV_setV_same]

/-- After a flagged result, its destination and VF read the same whatever the registers held before. -/
theorem State.getV_setFlagged_congr (s u : State) (x : Nibble) (r : AluResult) :
    (s.setFlagged x r).getV x = (u.setFlagged x r).getV x ∧
      (s.setFlagged x r).getV 0xF = (u.setFlagged x r).getV 0xF := by
  simp only [State.getV_setFlagged_same, State.getV_setFlagged_flag, and_self]

/-- Settles O26: the words are the encoder's; neither meaning names y; and a write to another register than Vx leaves
the operand, so that both runs end in the same flagged result. -/
theorem shiftsIgnoreTheirSecondField : Obligations.ShiftsIgnoreTheirSecondField := by
  intro s x y y' b
  have hVx (hyx : y ≠ x) : (s.setV y b).getV x = s.getV x := s.getV_setV_ne b hyx
  refine ⟨decodeWord_encode (.shr x y), decodeWord_encode (.shl x y), ⟨_, rfl, rfl⟩, ⟨_, rfl, rfl⟩,
    fun hyx => ⟨_, _, rfl, rfl, ?_⟩, fun hyx => ⟨_, _, rfl, rfl, ?_⟩⟩
  · rw [hVx hyx]
    exact State.getV_setFlagged_congr _ _ x (aluShr (s.getV x))
  · rw [hVx hyx]
    exact State.getV_setFlagged_congr _ _ x (aluShl (s.getV x))

end Sys2Proof.Machine

/-! PROOFS. Control flow (40_flow.md): jumps and skips as updates of PC alone, and the call stack as the list of its
occupied slots, which CALL extends at the end and RET shortens (R28, R109). -/

namespace Sys2Proof.Machine

/-! ## Jumps and skips -/

/-- Settles O12: the word is the encoder's; a step on it runs the jump after the driver advance, and the target is the
PC before that advance. -/
theorem jumpWritesItsTarget : Obligations.JumpWritesItsTarget := by
  intro s nnn
  have hdec : decodeWord (encodeNNN 0x1 nnn) = .ok (.jp nnn) := decodeWord_encode (.jp nnn)
  refine ⟨hdec, ⟨_, rfl, rfl, rfl⟩, fun hself hpc hword => ?_⟩
  have hfetched : decodeWord s.fetched = .ok (.jp nnn) := by rw [s.fetched_eq, hword, hdec]
  refine ⟨_, step_of_decodeWord (s.canFetch_iff.mpr hpc) hfetched, ?_⟩
  rw [← hself]
  rfl

/-- The target of Bnnn is the exact sum as a word (R107). -/
theorem zext8_add_zext12 (b : Byte) (nnn : Addr12) : zext8 b + zext12 nnn = BitVec.ofNat 16 (b.toNat + nnn.toNat) := by
  rw [BitVec.ofNat_add, BitVec.ofNat_toNat, BitVec.ofNat_toNat, zext8, zext12]

/-- Settles O13: a byte and a 12-bit address bound the sum, which `zext8_add_zext12` writes to PC. -/
theorem jumpThroughV0AddsExactly : Obligations.JumpThroughV0AddsExactly := by
  intro s nnn
  have hV0 := (s.getV 0).isLt
  have hnnn := nnn.isLt
  refine ⟨by omega, ?_⟩
  rw [← zext8_add_zext12]
  rfl

/-- A skip on a decided condition that completes writes PC alone (R103 to R106). -/
theorem State.complete_skipIf_decide (s : State) (c : Prop) [Decidable c] :
    (s.skipIf (decide c)).complete = { s with pc := if c then s.pc + 2 else s.pc, response := .ok } := by
  simp only [State.skipIf, State.setPC, State.complete, decide_eq_true_eq]

/-- Settles O16: both are a completed skip on a decided condition. -/
theorem byteSkipsTestOneRegister : Obligations.ByteSkipsTestOneRegister := fun s x nn =>
  ⟨congrArg _ (s.complete_skipIf_decide (s.getV x = nn)), congrArg _ (s.complete_skipIf_decide (s.getV x ≠ nn))⟩

/-- Settles O17: the words are the encoder's, and both are a completed skip on a decided condition. -/
theorem registerSkipsCompareTwoRegisters : Obligations.RegisterSkipsCompareTwoRegisters := by
  intro s x y
  refine ⟨decodeWord_encode (.seReg x y), decodeWord_encode (.sneReg x y), ⟨_, rfl, rfl, ?_⟩, ⟨_, rfl, rfl, ?_⟩⟩
  · rw [State.complete_skipIf_decide]
    rfl
  · rw [State.complete_skipIf_decide]
    rfl

/-! ## CALL and RET -/

/-- Settles O14: of the two outcomes of `push`, the one with a free slot. -/
theorem callPushesTheReturnAddress : Obligations.CallPushesTheReturnAddress := by
  intro s nnn hfree
  rcases s.push_cases s.pc with ⟨hfull, _⟩ | ⟨_, hpush⟩
  · omega
  · simp only [exec, execCall, hpush]
    rfl

/-- Settles O15: of the two outcomes of `pop`, the one with an occupied slot. -/
theorem returnPopsTheTopSlot : Obligations.ReturnPopsTheTopSlot := by
  intro s hoccupied
  rcases s.pop_cases with ⟨hempty, _⟩ | ⟨_, _, hpop⟩
  · omega
  · simp only [exec, execRet, hpop]
    rfl

/-! ## The call stack as a list -/

/-- The occupied slots, from the bottom to the top (R27). -/
def State.slots (s : State) : List Word := s.stack.toList.take s.sp.val

@[simp] theorem State.length_slots (s : State) : s.slots.length = s.sp.val := by
  rw [State.slots, List.length_take, Vector.length_toList]
  omega

theorem State.getElem_slots (s : State) {j : Nat} (h : j < s.slots.length) (h16 : j < 16) : s.slots[j] = s.stack[j] := by
  simp [State.slots]

theorem State.slots_eq_iff {s t : State} :
    t.slots = s.slots ↔ t.sp = s.sp ∧ ∀ (j : Nat) (h : j < 16), j < s.sp.val → t.stack[j] = s.stack[j] := by
  constructor
  · intro hslots
    have hsp : t.sp.val = s.sp.val := by rw [← t.length_slots, hslots, s.length_slots]
    refine ⟨Fin.ext hsp, fun j h16 hj => ?_⟩
    rw [← t.getElem_slots (by rw [t.length_slots]; omega) h16, ← s.getElem_slots (by rwa [s.length_slots]) h16]
    simp only [hslots]
  · rintro ⟨hsp, hstack⟩
    refine List.ext_getElem (by simp [hsp]) fun j htj hsj => ?_
    have hj : j < s.sp.val := s.length_slots ▸ hsj
    have h16 : j < 16 := by omega
    rw [t.getElem_slots htj h16, s.getElem_slots hsj h16, hstack j h16 hj]

/-- A CALL with a free slot puts its return address on top (R102). -/
theorem exec_call_slots {s : State} (h : s.sp.val < 16) (nnn : Addr12) :
    ∃ t, exec (.call nnn) s = .next t ∧ t.slots = s.slots ++ [s.pc] := by
  refine ⟨_, callPushesTheReturnAddress s nnn h, ?_⟩
  have htop : s.sp.val < (s.stack.toList.set s.sp.val s.pc).length := by simpa using h
  rw [State.slots, Vector.toList_set, ← List.take_concat_get' _ _ htop, List.take_set_of_le (Nat.le_refl _),
    List.getElem_set_self, State.slots]

/-- A RET with an occupied slot takes the top slot off and goes there (R100). -/
theorem exec_ret_slots {s : State} (h : 0 < s.sp.val) :
    ∃ t, exec .ret s = .next t ∧ t.response = .ok ∧ s.slots = t.slots ++ [t.pc] := by
  refine ⟨_, returnPopsTheTopSlot s h, rfl, ?_⟩
  have htop : s.sp.val - 1 < s.stack.toList.length := by rw [Vector.length_toList]; omega
  have hsp : s.sp.val - 1 + 1 = s.sp.val := by omega
  calc s.slots = s.stack.toList.take (s.sp.val - 1 + 1) := by rw [hsp, State.slots]
    _ = s.stack.toList.take (s.sp.val - 1) ++ [s.stack.toList[s.sp.val - 1]] := (List.take_concat_get' _ _ htop).symm

/-- RET after a push, whatever else changed since (R109). -/
theorem exec_ret_of_slots_eq_append {s : State} {ws : List Word} {w : Word} (h : s.slots = ws ++ [w]) :
    ∃ t, exec .ret s = .next t ∧ t.response = .ok ∧ t.slots = ws ∧ t.pc = w := by
  have hpos : 0 < s.sp.val := by rw [← s.length_slots, h]; simp
  obtain ⟨t, ht, hok, hslots⟩ := exec_ret_slots hpos
  obtain ⟨htail, htop⟩ := List.append_inj' (hslots.symm.trans h) rfl
  exact ⟨t, ht, hok, htail, List.singleton_inj.mp htop⟩

/-- Settles O18: the slots that RET meets are those before the CALL with its return address on top. -/
theorem returnUndoesCall : Obligations.ReturnUndoesCall := by
  intro s t u nnn hfree hcall hsp hstack
  obtain ⟨t', hcall', hpush⟩ := exec_call_slots hfree nnn
  cases hcall.symm.trans hcall'
  have hslots : u.slots = s.slots ++ [s.pc] := (State.slots_eq_iff.mpr ⟨hsp, hstack⟩).trans hpush
  obtain ⟨r, hret, hok, hrslots, hpc⟩ := exec_ret_of_slots_eq_append hslots
  obtain ⟨hrsp, hrstack⟩ := State.slots_eq_iff.mp hrslots
  exact ⟨r, hret, hok, hpc, hrsp, hrstack⟩

/-- Nested CALLs that fit put their return addresses on the stack in order (R109). -/
theorem nestCalls_slots (cs : List (Word × Addr12)) (s : State) (h : s.sp.val + cs.length ≤ 16) :
    ∃ t, nestCalls cs s = .next t ∧ t.slots = s.slots ++ cs.map (·.1) := by
  induction cs generalizing s with
  | nil => exact ⟨s, rfl, by simp⟩
  | cons c cs ih =>
    obtain ⟨ret, target⟩ := c
    rw [List.length_cons] at h
    obtain ⟨s', hcall, hpush⟩ := exec_call_slots (s := { s with pc := ret }) (show s.sp.val < 16 by omega) target
    have hpush' : s'.slots = s.slots ++ [ret] := hpush
    have hfits : s'.sp.val + cs.length ≤ 16 := by
      rw [← s'.length_slots, hpush', List.length_append, s.length_slots, List.length_singleton]
      omega
    obtain ⟨t, ht, hslots⟩ := ih s' hfits
    refine ⟨t, ?_, by simp [hslots, hpush']⟩
    simp only [nestCalls, hcall, ht]

/-- RETs take the slots off from the top (R109). -/
theorem returnPCs_of_slots_eq_append (us ws : List Word) (s : State) (h : s.slots = ws ++ us) :
    returnPCs us.length s = us.reverse := by
  induction us using List.reverseRecOn generalizing s with
  | nil => rfl
  | append_singleton us u ih =>
    rw [← List.append_assoc] at h
    obtain ⟨t, hret, _, hslots, hpc⟩ := exec_ret_of_slots_eq_append h
    rw [List.length_append, List.length_singleton, List.reverse_concat]
    simp only [returnPCs, hret, hpc, ih t hslots]

/-- Settles O19: the CALLs append their return addresses to the slots, and the RETs take them off from the top. -/
theorem nestedCallsReturnInReverseOrder : Obligations.NestedCallsReturnInReverseOrder := by
  intro cs s hfits
  obtain ⟨t, hnest, hslots⟩ := nestCalls_slots cs s hfits
  have hreturns := returnPCs_of_slots_eq_append (cs.map (·.1)) s.slots t hslots
  rw [List.length_map] at hreturns
  exact ⟨t, hnest, by rw [← t.length_slots, hslots]; simp, hreturns⟩

end Sys2Proof.Machine

/-! PROOFS. Register loads and the ALU (41_alu.md): each result in the spec's arithmetic, and what a completed write of a
register, or of a flag and a result, makes of the whole state (R120 to R131, R140, R141). -/

namespace Sys2Proof.Machine

/-! ## The results and flags as arithmetic -/

theorem flagByte_decide (c : Prop) [Decidable c] : flagByte (decide c) = if c then 1 else 0 := by
  simp only [flagByte, decide_eq_true_eq]

/-- A byte takes a number mod 256. -/
theorem ofNat_mod_256 (n : Nat) : BitVec.ofNat 8 (n % 256) = BitVec.ofNat 8 n :=
  BitVec.eq_of_toNat_eq (Nat.mod_mod n 256)

theorem aluAdd_eq (a b : Byte) :
    aluAdd a b = ⟨if a.toNat + b.toNat > 255 then 1 else 0, BitVec.ofNat 8 ((a.toNat + b.toNat) % 256)⟩ := by
  rw [aluAdd, flagByte_decide, ofNat_mod_256]

theorem aluAdd_value (a b : Byte) : (aluAdd a b).value = a + b := by
  rw [aluAdd, BitVec.ofNat_add, BitVec.ofNat_toNat, BitVec.ofNat_toNat, BitVec.setWidth_eq, BitVec.setWidth_eq]

theorem aluSub_value (a b : Byte) : (aluSub a b).value = a - b := by
  rw [aluSub, Int.sub_eq_add_neg, BitVec.ofInt_add, BitVec.ofInt_neg, BitVec.ofInt_natCast, BitVec.ofInt_natCast,
    BitVec.ofNat_toNat, BitVec.ofNat_toNat, BitVec.setWidth_eq, BitVec.setWidth_eq, BitVec.sub_eq_add_neg]

theorem aluSub_eq (a b : Byte) : aluSub a b = ⟨if b.toNat < a.toNat then 1 else 0, a - b⟩ := by
  rw [← flagByte_decide, ← aluSub_value]
  rfl

/-- Bit 0 of a byte as a byte (R128). -/
theorem and_one_eq_ofNat_mod_two (a : Byte) : a &&& 0x01 = BitVec.ofNat 8 (a.toNat % 2) := by
  rw [← Nat.and_one_is_mod, BitVec.ofNat_and, BitVec.ofNat_toNat, BitVec.setWidth_eq]
  rfl

theorem aluShr_eq (a : Byte) : aluShr a = ⟨BitVec.ofNat 8 (a.toNat % 2), BitVec.ofNat 8 (a.toNat / 2)⟩ := by
  have hvalue : a >>> 1 = BitVec.ofNat 8 (a.toNat / 2) := by bv_omega
  rw [aluShr, and_one_eq_ofNat_mod_two, hvalue]

theorem aluShl_eq (a : Byte) : aluShl a = ⟨BitVec.ofNat 8 (a.toNat / 128), BitVec.ofNat 8 (a.toNat * 2 % 256)⟩ := by
  have hbit : (a >>> 7).toNat % 2 = a.toNat / 128 := by bv_omega
  have hvalue : a <<< 1 = BitVec.ofNat 8 (a.toNat * 2 % 256) := by bv_omega
  rw [aluShl, and_one_eq_ofNat_mod_two, hbit, hvalue]

/-! ## A completed register write -/

/-- A register write that completes changes its register and nothing else of the block (R120 to R125). -/
theorem State.complete_setV (s : State) (x : Nibble) (b : Byte) :
    (s.setV x b).complete = { s with v := s.v.set x.toNat b x.isLt, response := .ok } := rfl

theorem State.block_complete_setV (s : State) (x : Nibble) (b : Byte) :
    (s.setV x b).complete.block = { s with v := s.v.set x.toNat b x.isLt }.block :=
  (s.setV x b).complete_block

/-- A flagged result that completes: the flag goes to VF, then the value to its register (R15, R140). -/
theorem State.complete_setFlagged (s : State) (x : Nibble) (flag value : Byte) :
    (s.setFlagged x ⟨flag, value⟩).complete =
      { s with v := (s.v.set 15 flag).set x.toNat value x.isLt, response := .ok } := rfl

/-- A flagged result with destination VF: the result overwrites the flag (R141). -/
theorem State.complete_setFlagged_vf (s : State) (r : AluResult) :
    (s.setFlagged 0xF r).complete = { s with v := s.v.set 15 r.value, response := .ok } := by
  have hv : (s.v.set 15 r.flag).set 15 r.value = s.v.set 15 r.value := Vector.set_set ..
  rw [← hv]
  rfl

/-! ## The loads, the byte add and the logic -/

/-- Settles O20: the words are the encoder's, and both meanings are one completed register write. -/
theorem registerLoadsWriteTheirRegister : Obligations.RegisterLoadsWriteTheirRegister := fun s x y nn =>
  ⟨decodeWord_encode (.ldByte x nn), decodeWord_encode (.ldReg x y),
    ⟨_, rfl, rfl, s.block_complete_setV x nn⟩,
    ⟨_, rfl, rfl, s.block_complete_setV x (s.getV y)⟩⟩

/-- Settles O21: one completed register write, of the sum mod 256. -/
theorem addByteWrapsAndLeavesTheFlag : Obligations.AddByteWrapsAndLeavesTheFlag := by
  intro s x nn
  refine ⟨decodeWord_encode (.addByte x nn), _, rfl, rfl, ?_⟩
  rw [ofNat_mod_256]
  exact s.block_complete_setV x _

/-- Settles O22: each is one completed register write. -/
theorem logicWritesOnlyItsDestination : Obligations.LogicWritesOnlyItsDestination := by
  intro s x y
  rw [← State.complete_setV, ← State.complete_setV, ← State.complete_setV]
  exact ⟨rfl, rfl, rfl⟩

/-! ## The flagged results -/

/-- Settles O23: a completed flagged result, the sum and its carry. -/
theorem addSetsTheCarryThenTheSum : Obligations.AddSetsTheCarryThenTheSum := by
  intro s x y
  rw [← State.complete_setFlagged, ← aluAdd_eq]
  rfl

/-- Settles O24: a completed flagged result each, the difference with its operands one way and the other. -/
theorem subtractSetsTheFlagWhenStrictlyGreater : Obligations.SubtractSetsTheFlagWhenStrictlyGreater := by
  intro s x y
  rw [← State.complete_setFlagged, ← State.complete_setFlagged, ← aluSub_eq, ← aluSub_eq]
  exact ⟨rfl, rfl⟩

/-- Settles O25: a completed flagged result each, the shifted register and the bit shifted out. -/
theorem shiftsMoveOneBitThroughTheFlag : Obligations.ShiftsMoveOneBitThroughTheFlag := by
  intro s x y
  rw [← State.complete_setFlagged, ← State.complete_setFlagged, ← aluShr_eq, ← aluShl_eq]
  exact ⟨rfl, rfl⟩

/-- Settles O27: with destination VF only the value of the flagged result stays. -/
theorem resultOverwritesTheFlagInVF : Obligations.ResultOverwritesTheFlagInVF := by
  intro s y
  rw [← aluAdd_value, ← aluSub_value, ← aluSub_value]
  have hVF (r : AluResult) := congrArg (Host.Outcome.next (φ := Fault) (ρ := Refusal)) (s.complete_setFlagged_vf r)
  exact ⟨hVF _, hVF _, hVF (aluShr _), hVF _, hVF (aluShl _)⟩

/-! ## The random byte -/

/-- Settles O28: one draw and one completed register write, of a masked byte, which has no bit outside its mask. -/
theorem randomMasksOneDraw : Obligations.RandomMasksOneDraw := by
  intro s x nn
  refine ⟨_, rfl, ?_, rfl⟩
  have hVx : (s.drawByte.2.setV x (s.drawByte.1 &&& nn)).complete.getV x = s.drawByte.1 &&& nn :=
    State.getV_setV_same _ x _
  rw [hVx, BitVec.and_assoc, BitVec.and_not_self]
  exact BitVec.and_zero

end Sys2Proof.Machine

/-! PROOFS. The index register, the font address, BCD and the block transfers (42_index_memory.md): a completed write of
I, and the memory or the registers after a transfer whose range is in memory (R150 to R155, R159). -/

namespace Sys2Proof.Machine

/-! ## Block load -/

theorem exec_loadRegs_of_inRange {s : State} {x : Nibble} (h : s.iReg.toNat + x.toNat ≤ 0xFFF) :
    exec (.loadRegs x) s = .next (s.setRegs (loadFrom s.v 0 (s.bytesAtI (x.toNat + 1)))).complete :=
  if_pos ((s.rangeOk_iff (x.toNat + 1)).mpr (.inr (by omega)))

/-- Loading V0 to Vx from I upward puts the byte at I + k in Vk up to Vx and leaves the registers above (R155). -/
theorem State.getV_setRegs_loadFrom_bytesAtI (s : State) (x k : Nibble) :
    (s.setRegs (loadFrom s.v 0 (s.bytesAtI (x.toNat + 1)))).getV k =
      if k.toNat ≤ x.toNat then s.readByte (s.iReg.toNat + k.toNat) else s.getV k := by
  have hlen : (s.bytesAtI (x.toNat + 1)).length = x.toNat + 1 := s.length_readBytes s.base (x.toNat + 1)
  split
  next hk =>
    have hin : 0 ≤ k.toNat ∧ k.toNat - 0 < (s.bytesAtI (x.toNat + 1)).length := by omega
    rw [State.getV, State.setRegs_v, getElem_loadFrom, dif_pos hin]
    exact s.getElem_readBytes s.base (x.toNat + 1) k.toNat hin.2
  next hk => exact s.getV_setRegs_loadFrom _ (by omega)

/-- Settles O33: the registers after the load, one by one. -/
theorem blockLoadReadsItsRange : Obligations.BlockLoadReadsItsRange := fun s x h =>
  ⟨_, exec_loadRegs_of_inRange h, s.getV_setRegs_loadFrom_bytesAtI x, rfl⟩

/-! ## The two transfers into memory -/

/-- Settles O31: `writeBytes` of the three digits, inside and outside its range. -/
theorem bcdStoresThreeDigits : Obligations.BcdStoresThreeDigits := by
  intro s x h
  have hfits : s.base + (decimalDigits (s.getV x)).length ≤ Config.memSize := Nat.succ_le_succ h
  have digit (k : Nat) (hk : k < (decimalDigits (s.getV x)).length) :=
    s.readByte_writeBytes_inside s.base k _ hk hfits
  exact ⟨_, exec_ldB_of_inRange h, digit 0 (by simp), digit 1 (by simp), digit 2 (by simp),
    fun a ha => s.readByte_writeBytes_outside s.base a _ ha, rfl⟩

/-- Settles O32: inside the range by `readByte_of_exec_storeRegs`, outside it by the frame of `writeBytes`. -/
theorem blockStoreWritesItsRange : Obligations.BlockStoreWritesItsRange := by
  intro s x h
  have hstore := exec_storeRegs_of_inRange h
  refine ⟨_, hstore, fun k hk => readByte_of_exec_storeRegs h hk hstore, fun a ha => ?outside, rfl⟩
  case outside =>
    refine s.readByte_writeBytes_outside s.base a _ ?_
    rwa [State.length_regsUpTo]

/-! ## The index register -/

/-- A write of I that completes changes I and nothing else of the block (R150 to R152). -/
theorem State.complete_setI (s : State) (w : Word) : (s.setI w).complete = { s with iReg := w, response := .ok } := rfl

theorem State.block_complete_setI (s : State) (w : Word) : (s.setI w).complete.block = { s with iReg := w }.block :=
  (s.setI w).complete_block

/-- A 16-bit word takes a number mod 65536. -/
theorem ofNat_mod_65536 (n : Nat) : BitVec.ofNat 16 (n % 65536) = BitVec.ofNat 16 n :=
  BitVec.eq_of_toNat_eq (Nat.mod_mod n 65536)

/-- Settles O29: the words are the encoder's, and both meanings are one completed write of I. -/
theorem indexLoadAndAdd : Obligations.IndexLoadAndAdd := by
  intro s nnn x
  rw [ofNat_mod_65536]
  exact ⟨decodeWord_encode (.ldI nnn), decodeWord_encode (.addI x),
    ⟨_, rfl, rfl, s.block_complete_setI (zext12 nnn)⟩, ⟨_, rfl, rfl, s.block_complete_setI _⟩⟩

/-- Settles O30: one completed write of I, with no condition on Vx. -/
theorem fontAddressIsFiveTimesTheRegister : Obligations.FontAddressIsFiveTimesTheRegister := fun s _ =>
  congrArg Host.Outcome.next (s.complete_setI _)

end Sys2Proof.Machine

/-! PROOFS. The screen (43_display.md): a draw as passes that each flip a set of pixels, and from the passes of one DRW,
whose sets are disjoint, the XOR of the whole sprite and its collision bit (R171 to R178). -/

namespace Sys2Proof.Machine

/-! ## Clearing -/

/-- Settles O35: the state after CLS is `display blankScreen`, whatever the screen was. -/
theorem clearTurnsEveryPixelOff : Obligations.ClearTurnsEveryPixelOff := fun _ =>
  ⟨_, rfl, pixel_blankScreen, rfl, rfl⟩

/-! ## Passes that flip a set of pixels -/

/-- A pass of the blitter turns screen and collision bit `before` into `after` by flipping exactly the pixels of `cells`,
each once (R171), and by setting the collision bit if one of them was on (R173). -/
structure Flips (before : Framebuffer × Bool) (cells : Set (Fin 32 × Fin 64)) (after : Framebuffer × Bool) : Prop where
  pixel_iff (row : Fin 32) (col : Fin 64) :
    pixel after.1 row col = true ↔ ¬ (pixel before.1 row col = true ↔ (row, col) ∈ cells)
  collision_iff : after.2 = true ↔ before.2 = true ∨ ∃ row col, (row, col) ∈ cells ∧ pixel before.1 row col = true

theorem Flips.refl (acc : Framebuffer × Bool) : Flips acc ∅ acc where
  pixel_iff := by simp
  collision_iff := by simp

/-- Two passes over disjoint sets of pixels flip their union: the second finds each of its pixels as the first found
it. -/
theorem Flips.trans {a b c : Framebuffer × Bool} {S T : Set (Fin 32 × Fin 64)} (hST : Disjoint S T) (hab : Flips a S b)
    (hbc : Flips b T c) : Flips a (S ∪ T) c where
  pixel_iff row col := by
    have hnot : (row, col) ∈ S → (row, col) ∉ T := fun hS => Set.disjoint_left.mp hST hS
    rw [hbc.pixel_iff, hab.pixel_iff, Set.mem_union]
    tauto
  collision_iff := by
    have hsame (row : Fin 32) (col : Fin 64) (hT : (row, col) ∈ T) :
        pixel b.1 row col = true ↔ pixel a.1 row col = true := by
      have hS : (row, col) ∉ S := Set.disjoint_right.mp hST hT
      rw [hab.pixel_iff]
      tauto
    have hsecond : (∃ row col, (row, col) ∈ T ∧ pixel b.1 row col = true) ↔
        ∃ row col, (row, col) ∈ T ∧ pixel a.1 row col = true :=
      exists_congr fun row => exists_congr fun col => and_congr_right (hsame row col)
    rw [hbc.collision_iff, hab.collision_iff, hsecond, or_assoc]
    simp only [Set.mem_union, or_and_right, exists_or]

/-- Passes one after another over pairwise disjoint sets of pixels flip the union of the sets. -/
theorem Flips.foldl {α : Type} {f : Framebuffer × Bool → α → Framebuffer × Bool} {cells : α → Set (Fin 32 × Fin 64)}
    (hf : ∀ acc a, Flips acc (cells a) (f acc a)) (as : List α)
    (hdisj : as.Pairwise fun a b => Disjoint (cells a) (cells b)) (acc : Framebuffer × Bool) :
    Flips acc (⋃ a ∈ as, cells a) (as.foldl f acc) := by
  induction as generalizing acc with
  | nil => simpa using Flips.refl acc
  | cons a as ih =>
    obtain ⟨ha, has⟩ := List.pairwise_cons.mp hdisj
    have hunion : (⋃ b ∈ a :: as, cells b) = cells a ∪ ⋃ b ∈ as, cells b := by
      simp only [List.mem_cons, Set.iUnion_iUnion_eq_or_left]
    rw [hunion]
    exact .trans (Set.disjoint_iUnion₂_right.mpr ha) (hf acc a) (ih has (f acc a))

/-! ## The passes of a sprite -/

/-- The pixel that sprite bit `c` of row byte `b` flips: one if the bit is set, else none (R171). -/
def bitCells (vx : Nat) (row : Fin 32) (b : Byte) (c : Nat) : Set (Fin 32 × Fin 64) :=
  {p | spriteBit b c = true ∧ p = (row, colAt vx c)}

/-- The pixels that row byte `b` flips in the screen row `row` (R171). -/
def rowCells (vx : Nat) (row : Fin 32) (b : Byte) : Set (Fin 32 × Fin 64) := ⋃ c ∈ List.range 8, bitCells vx row b c

/-- The pixels that a sprite flips, its first row byte at the screen row of `vy` (R171, R174). -/
def spriteCells (vx vy : Nat) (bytes : List Byte) : Set (Fin 32 × Fin 64) :=
  ⋃ br ∈ bytes.zipIdx, rowCells vx (rowAt vy br.2) br.1

theorem rowAt_inj {vy r r' : Nat} (hr : r < 32) (hr' : r' < 32) (h : rowAt vy r = rowAt vy r') : r = r' := by
  have hmod : (vy + r) % 32 = (vy + r') % 32 := congrArg Fin.val h
  omega

theorem colAt_inj {vx c c' : Nat} (hc : c < 64) (hc' : c' < 64) (h : colAt vx c = colAt vx c') : c = c' := by
  have hmod : (vx + c) % 64 = (vx + c') % 64 := congrArg Fin.val h
  omega

theorem flips_drawBit (vx : Nat) (row : Fin 32) (b : Byte) (acc : Framebuffer × Bool) (c : Nat) :
    Flips acc (bitCells vx row b c) (drawBit vx row b acc c) where
  pixel_iff row' col' := by
    simp only [drawBit, pixel_xorPixel, bitCells, Set.mem_ofPred_eq, Prod.mk.injEq]
    by_cases hcell : row = row' ∧ colAt vx c = col'
    · obtain ⟨rfl, rfl⟩ := hcell
      simp
    · have hne : ¬ (row' = row ∧ col' = colAt vx c) := fun h => hcell ⟨h.1.symm, h.2.symm⟩
      simp [hcell, hne]
  collision_iff := by simp [drawBit, bitCells]

/-- Sprite columns are fewer than screen columns, so no two bits of a sprite row land on one pixel (R174). -/
theorem disjoint_bitCells {vx c c' : Nat} (row : Fin 32) (b : Byte) (hc : c < 64) (hc' : c' < 64) (hne : c ≠ c') :
    Disjoint (bitCells vx row b c) (bitCells vx row b c') := by
  refine Set.disjoint_left.mpr fun p ⟨_, hp⟩ ⟨_, hp'⟩ => hne (colAt_inj (vx := vx) hc hc' ?_)
  exact congrArg Prod.snd (hp.symm.trans hp')

theorem flips_drawRow (vx : Nat) (row : Fin 32) (b : Byte) (acc : Framebuffer × Bool) :
    Flips acc (rowCells vx row b) (drawRow vx row b acc) := by
  refine Flips.foldl (flips_drawBit vx row b) (List.range 8) ?_ acc
  refine List.pairwise_lt_range.imp_of_mem fun hc hc' hlt => ?_
  rw [List.mem_range] at hc hc'
  exact disjoint_bitCells row b (by omega) (by omega) (by omega)

theorem disjoint_rowCells {vx : Nat} {row row' : Fin 32} (b b' : Byte) (hne : row ≠ row') :
    Disjoint (rowCells vx row b) (rowCells vx row' b') := by
  simp only [rowCells, Set.disjoint_iUnion₂_left, Set.disjoint_iUnion₂_right]
  refine fun c _ c' _ => Set.disjoint_left.mpr fun p ⟨_, hp⟩ ⟨_, hp'⟩ => hne ?_
  exact congrArg Prod.fst (hp.symm.trans hp')

theorem drawRows_eq_foldl (vx vy : Nat) (bytes : List Byte) (r : Nat) (acc : Framebuffer × Bool) :
    drawRows vx vy r bytes acc =
      (bytes.zipIdx r).foldl (fun acc br => drawRow vx (rowAt vy br.2) br.1 acc) acc := by
  induction bytes generalizing r acc with
  | nil => rfl
  | cons b bytes ih => exact ih (r + 1) (drawRow vx (rowAt vy r) b acc)

/-- A sprite of at most 32 rows flips the pixels of its rows: no two of them share a screen row (R174). -/
theorem flips_drawSprite (fb : Framebuffer) (vx vy : Nat) {bytes : List Byte} (hlen : bytes.length ≤ 32) :
    Flips (fb, false) (spriteCells vx vy bytes) (drawSprite fb vx vy bytes) := by
  rw [drawSprite, drawRows_eq_foldl]
  refine Flips.foldl (fun acc br => flips_drawRow vx (rowAt vy br.2) br.1 acc) _ ?_ _
  refine List.pairwise_iff_getElem.mpr fun i j hi hj hlt => disjoint_rowCells _ _ fun hrow => ?_
  rw [List.length_zipIdx] at hi hj
  simp only [List.getElem_zipIdx, Nat.zero_add] at hrow
  have hij : i = j := rowAt_inj (by omega) (by omega) hrow
  omega

/-! ## DRW -/

/-- The pixels that a DRW flips are those that a set bit of its sprite lands on (R171, R172, R174). -/
theorem State.mem_spriteCells_iff (s : State) (x y n : Nibble) (row : Fin 32) (col : Fin 64) :
    (row, col) ∈ spriteCells (s.getV x).toNat (s.getV y).toNat (s.bytesAtI n.toNat) ↔ s.Lit x y n row col := by
  have hlen : (s.bytesAtI n.toNat).length = n.toNat := s.length_readBytes s.base n.toNat
  have hbyte (r : Nat) (h : r < (s.bytesAtI n.toNat).length) : (s.bytesAtI n.toNat)[r] = s.readByte (s.iReg.toNat + r) :=
    s.getElem_readBytes s.base n.toNat r h
  simp only [spriteCells, rowCells, bitCells, Set.mem_iUnion₂, Set.mem_ofPred_eq, List.mem_range,
    Prod.mk.injEq, exists_prop]
  constructor
  · rintro ⟨⟨b, r⟩, hmem, c, hc, hbit, rfl, rfl⟩
    obtain ⟨hr, hb⟩ := List.getElem?_eq_some_iff.mp (List.mk_mem_zipIdx_iff_getElem?.mp hmem)
    rw [hbyte] at hb
    subst hb
    exact ⟨r, c, hlen ▸ hr, hc, hbit, rfl, rfl⟩
  · rintro ⟨r, c, hr, hc, hbit, hrow, hcol⟩
    refine ⟨(s.readByte (s.iReg.toNat + r), r), ?_, c, hc, hbit, Fin.ext hrow, Fin.ext hcol⟩
    have hr' : r < (s.bytesAtI n.toNat).length := hlen.symm ▸ hr
    exact List.mk_mem_zipIdx_iff_getElem?.mpr (List.getElem?_eq_some_iff.mpr ⟨hr', hbyte r hr'⟩)

theorem State.flips_drawn (s : State) (x y n : Nibble) :
    Flips (s.fb, false) {p | s.Lit x y n p.1 p.2} (s.drawn x y n) := by
  have hlen : (s.bytesAtI n.toNat).length ≤ 32 := by
    rw [State.bytesAtI, State.length_readBytes]
    omega
  have hcells := Set.ext fun p : Fin 32 × Fin 64 => s.mem_spriteCells_iff x y n p.1 p.2
  exact hcells ▸ flips_drawSprite s.fb (s.getV x).toNat (s.getV y).toNat hlen

theorem exec_drw_of_inRange {s : State} {x y n : Nibble} (h : n.toNat = 0 ∨ s.iReg.toNat + n.toNat - 1 ≤ 0xFFF) :
    exec (.drw x y n) s = .next ((s.display (s.drawn x y n).1).setV 15 (flagByte (s.drawn x y n).2)).complete :=
  if_pos ((s.rangeOk_iff n.toNat).mpr (by omega))

theorem inRange_of_exec_drw {s t : State} {x y n : Nibble} (h : exec (.drw x y n) s = .next t) (hok : t.response = .ok) :
    n.toNat = 0 ∨ s.iReg.toNat + n.toNat - 1 ≤ 0xFFF := by
  simp only [exec, execDrw] at h
  split at h
  next hrange =>
    rw [State.rangeOk_iff] at hrange
    omega
  next =>
    cases h
    cases hok

theorem flagByte_cases (c : Bool) : flagByte c = 1 ∨ flagByte c = 0 := by cases c <;> decide

theorem flagByte_eq_one_iff (c : Bool) : flagByte c = 1 ↔ c = true := by cases c <;> decide

/-- Settles O36: the pixels and the collision are those of `State.flips_drawn`, with no collision before the draw. -/
theorem drawXorsEveryPixelOfTheSprite : Obligations.DrawXorsEveryPixelOfTheSprite := by
  intro s x y n hrange
  have hflips := s.flips_drawn x y n
  have hVF : ((s.display (s.drawn x y n).1).setV 15 (flagByte (s.drawn x y n).2)).complete.getV 0xF =
      flagByte (s.drawn x y n).2 := State.getV_setV_same _ 15 _
  refine ⟨_, exec_drw_of_inRange hrange, hflips.pixel_iff, ?_, ?_, fun j hj => ?_, rfl, rfl⟩
  · rw [hVF]
    exact flagByte_cases _
  · rw [hVF, flagByte_eq_one_iff, hflips.collision_iff]
    simp
  · exact State.getV_setV_ne _ _ hj.symm

/-! ## Drawing twice -/

/-- The pixels a sprite reaches depend on memory, I and the two coordinates alone (R171). -/
theorem State.Lit.congr {s t : State} {x y n : Nibble} (hmem : t.readByte = s.readByte) (hI : t.iReg = s.iReg)
    (hx : t.getV x = s.getV x) (hy : t.getV y = s.getV y) (row : Fin 32) (col : Fin 64) :
    t.Lit x y n row col ↔ s.Lit x y n row col := by
  rw [State.Lit, State.Lit, hmem, hI, hx, hy]

/-- Settles O37, from O36 for both draws: the second reaches the same pixels, so each is flipped twice. -/
theorem drawingTwiceErases : Obligations.DrawingTwiceErases := by
  intro s t x y n hx hy hst hok
  have hrange := inRange_of_exec_drw hst hok
  obtain ⟨t', hst', hpix, hVF, hcol, hregs, -, hframe⟩ := drawXorsEveryPixelOfTheSprite s x y n hrange
  obtain rfl : t' = t := Host.Outcome.next.inj (hst'.symm.trans hst)
  have hI : t'.iReg = s.iReg := (congrArg State.iReg hframe :)
  have hmem : t'.readByte = s.readByte := (congrArg State.readByte hframe :)
  obtain ⟨u, htu, hpix', -, hcol', -⟩ := drawXorsEveryPixelOfTheSprite t' x y n (hI ▸ hrange)
  simp only [State.Lit.congr hmem hI (hregs x hx) (hregs y hy)] at hpix' hcol'
  refine ⟨u, htu, fun row col => Bool.eq_iff_iff.mpr ?restored, fun hoff => ⟨?clear, fun ⟨row, col, hlit⟩ => ?hits⟩⟩
  case restored =>
    rw [hpix', hpix]
    tauto
  case clear =>
    refine hVF.resolve_left fun hone => ?_
    obtain ⟨row, col, -, hon⟩ := hcol.mp hone
    exact Bool.false_ne_true ((hoff row col).symm.trans hon)
  case hits =>
    refine hcol'.mpr ⟨row, col, hlit, (hpix row col).mpr ?_⟩
    simp [hoff row col, hlit]

end Sys2Proof.Machine

/-! PROOFS. Timers and keys (44_timers_keys.md): the timer moves, the key skips, and the key wait, which finds its lowest
key or stands still for as long as none is pressed (R190 to R197). -/

namespace Sys2Proof.Machine

/-! ## The key wait -/

/-- The lowest pressed key is the one below which none is pressed (R194). -/
theorem lowestPressed_eq_some {keys : BitVec 16} {k : Nibble} (hk : keys.getLsbD k.toNat = true)
    (hlow : ∀ j : Nibble, j.toNat < k.toNat → keys.getLsbD j.toNat = false) : lowestPressed keys = some k.toNat := by
  rcases lowestPressed_cases keys with ⟨rfl, _⟩ | ⟨m, hm, hpressed, hbelow, hfound⟩
  · simp at hk
  · rw [hfound]
    refine congrArg some (Nat.le_antisymm (Nat.le_of_not_lt fun hgt => ?_) (Nat.le_of_not_lt fun hlt => ?_))
    · exact Bool.false_ne_true ((hbelow k.toNat hgt).symm.trans hk)
    · exact Bool.false_ne_true ((hlow (BitVec.ofFin ⟨m, hm⟩) hlt).symm.trans hpressed)

theorem exec_ldVxK_of_lowestPressed {s : State} {x k : Nibble} (h : lowestPressed s.keys = some k.toNat) :
    exec (.ldVxK x) s = .next (s.setV x (k.setWidth 8)).complete := by
  simp only [exec, execLdVxK, h]
  rw [← BitVec.ofNat_toNat]

theorem exec_ldVxK_of_no_key {s : State} (x : Nibble) (h : s.keys = 0) :
    exec (.ldVxK x) s = .next (s.awaitKey x).complete := by
  have hnone : lowestPressed s.keys = none := by rw [h]; decide
  simp only [exec, execLdVxK, hnone]

/-- Settles O40: the two results of `lowestPressed`. -/
theorem keyWaitTakesTheLowestKeyOrHolds : Obligations.KeyWaitTakesTheLowestKeyOrHolds := fun _ x =>
  ⟨fun _ hk hlow => exec_ldVxK_of_lowestPressed (lowestPressed_eq_some hk hlow), exec_ldVxK_of_no_key x⟩

/-- The rollback of the key wait takes back the driver advance, so that a waiting step changes MODE and WAIT_X only
(R194). -/
theorem State.complete_awaitKey_advance (s : State) (x : Nibble) :
    (s.advance.awaitKey x).complete = { s with mode := .awaitingKey, waitX := x, response := .ok } := by
  have hpc : s.advance.pc - 2 = s.pc := BitVec.add_sub_cancel s.pc 2
  rw [State.awaitKey, hpc]
  rfl

theorem step_keyWait {s : State} {x : Nibble} (hc : s.canFetch = true) (hd : decodeWord s.fetched = .ok (.ldVxK x))
    (hkeys : s.keys = 0) : step s = .next { s with mode := .awaitingKey, waitX := x, response := .ok } := by
  rw [step_of_decodeWord hc hd, exec_ldVxK_of_no_key (s := s.advance) x hkeys, State.complete_awaitKey_advance]

/-- The state that the first waiting step leaves is the state that every later one finds and leaves (R194). -/
theorem run_keyWait (n : Nat) {s : State} {x : Nibble} (hc : s.canFetch = true)
    (hd : decodeWord s.fetched = .ok (.ldVxK x)) (hkeys : s.keys = 0) :
    Sys2Proof.core.run (n + 1) s = .next { s with mode := .awaitingKey, waitX := x, response := .ok } := by
  induction n generalizing s with
  | zero => exact run_succ _ 0 _ _ (step_keyWait hc hd hkeys)
  | succ n ih =>
    exact (run_succ _ (n + 1) _ _ (step_keyWait hc hd hkeys)).trans
      (ih (s := { s with mode := .awaitingKey, waitX := x, response := .ok }) hc hd hkeys)

/-- Settles O41: `run_keyWait`, whose last state differs from the one named in its response alone. -/
theorem keyWaitHoldsOverEveryStep : Obligations.KeyWaitHoldsOverEveryStep := fun n s _ hpc hkeys hd =>
  ⟨_, run_keyWait n (s.canFetch_iff.mpr hpc) hd hkeys, rfl, rfl⟩

/-! ## The key skips -/

theorem State.keyIndex_of_le {s : State} {x : Nibble} (h : (s.getV x).toNat ≤ 0x0F) :
    s.keyIndex x = some (s.getV x).toNat :=
  if_neg (Nat.not_lt.mpr h)

/-- Settles O38: both are a completed skip on a decided condition, for the index that passed its check. -/
theorem keySkipsTestTheNamedKey : Obligations.KeySkipsTestTheNamedKey := by
  intro s x h
  rw [← State.complete_skipIf_decide, ← State.complete_skipIf_decide, Bool.decide_eq_true, Bool.decide_eq_false]
  simp only [exec, execSkp, execSknp, State.keyIndex_of_le h]
  exact ⟨rfl, rfl⟩

/-! ## The timer moves -/

/-- Settles O39: the words are the encoder's, and each meaning is one completed write, of Vx, DT or ST. -/
theorem timerMovesCopyTheByte : Obligations.TimerMovesCopyTheByte := fun s x =>
  ⟨decodeWord_encode (.ldVxDT x), decodeWord_encode (.ldDTVx x), decodeWord_encode (.ldSTVx x),
    ⟨_, rfl, rfl, s.block_complete_setV x s.dt⟩,
    ⟨_, rfl, rfl, (s.setDT (s.getV x)).complete_block⟩,
    ⟨_, rfl, rfl, (s.setST (s.getV x)).complete_block⟩⟩

end Sys2Proof.Machine

/-! PROOFS. The host interface (50_host_interface.md): the nine transactions over any state and any sequence of them, what
a step reports, and when a step ends in the key wait (R211 to R222, R235). -/

namespace Sys2Proof.Machine

/-! ## How the execute phase ends -/

/-- No instruction is refused: each ends in a next state (R235). -/
theorem exec_exists_next (i : Instr) (s : State) : ∃ t, exec i s = .next t := by
  cases i with
  | ret => rcases s.pop_cases with ⟨_, hp⟩ | ⟨_, _, hp⟩ <;> simp [exec, execRet, hp]
  | call nnn => rcases s.push_cases s.pc with ⟨_, hp⟩ | ⟨_, hp⟩ <;> simp [exec, execCall, hp]
  | skp x | sknp x => rcases s.keyIndex_cases x with ⟨_, hk⟩ | ⟨_, hk⟩ <;> simp [exec, execSkp, execSknp, hk]
  | ldVxK x => rcases lowestPressed_cases s.keys with ⟨_, hk⟩ | ⟨_, _, _, _, hk⟩ <;> simp [exec, execLdVxK, hk]
  | ldB x | storeRegs x | loadRegs x | drw x y n =>
    simp only [exec, execLdB, execStoreRegs, execLoadRegs, execDrw]
    split <;> exact ⟨_, rfl⟩
  | _ => exact ⟨_, rfl⟩

/-- An instruction completes, with nothing recorded, or raises, with nothing else changed (R234). -/
theorem exec_completes_or_raises {i : Instr} {s t : State} (h : exec i s = .next t) :
    (t.response = .ok ∧ t.errors = s.errors) ∨ ∃ k, t = s.raise k i := by
  cases exec_effect h with
  | raises k => exact .inr ⟨k, rfl⟩
  | _ => exact .inl ⟨rfl, rfl⟩

/-- An instruction leaves MODE AwaitingKey exactly when it is an Fx0A that found no key pressed (R194). -/
theorem exec_mode_eq_awaitingKey_iff {i : Instr} {s t : State} (hs : s.mode = .running) (h : exec i s = .next t) :
    t.mode = .awaitingKey ↔ s.keys = 0 ∧ ∃ x, i = .ldVxK x := by
  have running_ne : s.mode ≠ .awaitingKey := by rw [hs]; decide
  rcases exec_mode h with hm | ⟨x, rfl, rfl⟩
  · rw [hm]
    refine iff_of_false running_ne fun ⟨hkeys, x, hi⟩ => ?_
    subst hi
    rw [exec_ldVxK_of_no_key x hkeys] at h
    cases h
    exact running_ne hm.symm
  · refine iff_of_true rfl ⟨?_, x, rfl⟩
    rcases lowestPressed_cases s.keys with ⟨hkeys, _⟩ | ⟨k, _, _, _, hfound⟩
    · exact hkeys
    · simp only [exec, execLdVxK, hfound, Host.Outcome.next.injEq] at h
      exact absurd (congrArg State.mode h) running_ne

/-! ## What a step reports, and when it waits -/

/-- The address that the execute phase reports is that of the fetched word: it takes back the driver advance (R212). -/
theorem State.advance_pc_sub_two (s : State) : s.advance.pc - 2 = s.pc := BitVec.add_sub_cancel s.pc 2

/-- A step that fetched responds Ok, or an error that names the address and the word it fetched, with nothing of the
block changed after the driver advance (R213, R214, R234). -/
theorem step_ok_or_report {s t : State} (hc : s.canFetch = true) (h : step s = .next t) :
    (t.response = .ok ∧ t.errors = s.errors) ∨ ∃ k, t = s.advance.report ⟨k, some s.pc, some s.fetched⟩ := by
  rcases step_cases s with ⟨hno, _⟩ | ⟨_, _, _, hstep⟩ | ⟨_, i, hd, hstep⟩
  · cases hno.symm.trans hc
  · rw [hstep, State.unknownOpcode, State.advance_pc_sub_two] at h
    cases h
    exact .inr ⟨_, rfl⟩
  · rw [hstep] at h
    rcases exec_completes_or_raises h with hok | ⟨k, rfl⟩
    · exact .inl hok
    · rw [State.raise, State.advance_pc_sub_two, encodeOfDecodeIsTheWord s.fetched i hd]
      exact .inr ⟨k, rfl⟩

/-- Settles O11: of the two responses of a step that fetched, the report. -/
theorem stepReportsNameAddressAndWord : Obligations.StepReportsNameAddressAndWord := by
  intro s t e hpc h he
  rcases step_ok_or_report (s.canFetch_iff.mpr hpc) h with ⟨hok, _⟩ | ⟨k, rfl⟩
  · cases hok.symm.trans he
  · cases he
    exact ⟨rfl, congrArg some s.fetched_eq, s.advance.report_block _⟩

/-- Settles O49: the driver advance sets MODE Running, so only the execute phase can leave AwaitingKey. -/
theorem awaitingExactlyAfterAnUnansweredKeyWait : Obligations.AwaitingExactlyAfterAnUnansweredKeyWait := by
  intro s t hpc h
  rcases step_cases s with ⟨hno, _⟩ | ⟨_, e, hd, hstep⟩ | ⟨_, i, hd, hstep⟩
  · cases hno.symm.trans (s.canFetch_iff.mpr hpc)
  · rw [hstep] at h
    cases h
    rw [hd]
    exact iff_of_false (by simp [State.unknownOpcode]) fun ⟨_, _, hx⟩ => by cases hx
  · rw [hstep] at h
    rw [hd, exec_mode_eq_awaitingKey_iff s.advance_mode h]
    simp only [State.advance_keys, Except.ok.injEq]

/-! ## One transaction -/

theorem step_exists_next (s : State) : ∃ t, step s = .next t := by
  rcases step_cases s with ⟨_, hstep⟩ | ⟨_, _, _, hstep⟩ | ⟨_, i, _, hstep⟩ <;> rw [hstep]
  · exact ⟨_, rfl⟩
  · exact ⟨_, rfl⟩
  · exact exec_exists_next i s.advance

/-- Every transaction is accepted in every state (R220). -/
theorem transact_exists_next (tr : Transaction) (s : State) : ∃ t, transact tr s = .next t := by
  cases tr with
  | step => exact step_exists_next s
  | _ => exact ⟨_, rfl⟩

/-- The record of errors grows by the transaction's own error response, if that is what it is (R235). -/
theorem transact_errors {tr : Transaction} {s t : State} (h : transact tr s = .next t) :
    t.errors = s.errors ++ errorsOf [t.response] := by
  have of_quiet (hr : errorsOf [t.response] = []) (he : t.errors = s.errors) :
      t.errors = s.errors ++ errorsOf [t.response] := by rw [hr, he, List.append_nil]
  cases tr with
  | step =>
    cases hc : s.canFetch with
    | false =>
      cases (step_of_not_canFetch hc).symm.trans h
      rfl
    | true =>
      rcases step_ok_or_report hc h with ⟨hr, he⟩ | ⟨k, rfl⟩
      · exact of_quiet (by rw [hr]; rfl) he
      · rfl
  | loadProgram bytes offset =>
    cases h
    by_cases hfits : offset + bytes.length ≤ 4096
    · rw [hostLoadProgram_of_fits s hfits]
      exact (List.append_nil _).symm
    · rw [hostLoadProgram_of_not_fits s (Nat.lt_of_not_le hfits)]
      rfl
  | _ => cases h; exact of_quiet rfl rfl

/-! ## Sequences of transactions -/

theorem errorsOf_cons (r : Response) (rs : List Response) : errorsOf (r :: rs) = errorsOf [r] ++ errorsOf rs :=
  List.filterMap_append (l := [r])

/-- A sequence of transactions observes one response for each, and the errors among them are what the record grew by
(R222, R235). -/
theorem transactAll_exists_next (trs : List Transaction) (s : State) :
    ∃ o, transactAll trs s = .next o ∧ o.responses.length = trs.length ∧
      o.final.errors = s.errors ++ errorsOf o.responses := by
  induction trs generalizing s with
  | nil => exact ⟨_, rfl, rfl, (List.append_nil _).symm⟩
  | cons tr trs ih =>
    obtain ⟨t, ht⟩ := transact_exists_next tr s
    obtain ⟨o, ho, hlen, herrors⟩ := ih t
    refine ⟨_, transactAll_cons ht ho, congrArg (· + 1) hlen, ?_⟩
    rw [herrors, transact_errors ht, errorsOf_cons t.response o.responses, List.append_assoc]

/-- One transaction more adds its own response and the state it leaves (R222). -/
theorem transactAll_concat {trs : List Transaction} {tr : Transaction} {s t : State} {o : Observation}
    (ho : transactAll trs s = .next o) (ht : transact tr o.final = .next t) :
    transactAll (trs ++ [tr]) s = .next ⟨t, o.responses ++ [t.response]⟩ := by
  induction trs generalizing s o with
  | nil =>
    cases ho
    exact transactAll_cons ht (o := ⟨t, []⟩) rfl
  | cons head trs ih =>
    obtain ⟨u, hu⟩ := transact_exists_next head s
    obtain ⟨rest, hrest, _⟩ := transactAll_exists_next trs u
    cases (transactAll_cons hu hrest).symm.trans ho
    exact transactAll_cons hu (ih hrest ht)

/-- What construct and reset leave depends on FONT, the place in the random sequence and the record of errors alone
(R261). -/
theorem State.reinitialize_congr {s u : State} (hfont : s.font = u.font) (hrng : s.rng = u.rng)
    (herrors : s.errors = u.errors) : s.reinitialize = u.reinitialize := by
  rw [State.reinitialize, State.reinitialize, hfont, hrng, herrors]

/-- The first transaction of a run that begins with construct or reset initialises the block again (R222, R261). -/
theorem eq_cons_of_beginsRun {trs : List Transaction} (h : beginsRun trs = true) :
    ∃ tr rest, trs = tr :: rest ∧ ∀ s, transact tr s = .next s.reinitialize := by
  match trs, h with
  | .construct :: rest, _ => exact ⟨.construct, rest, rfl, fun _ => rfl⟩
  | .reset :: rest, _ => exact ⟨.reset, rest, rfl, fun _ => rfl⟩

/-- Settles O9: totality and the observation by induction over the sequence; a run depends on its first state only
through `reinitialize`. -/
theorem everyTransactionIsAccepted : Obligations.EveryTransactionIsAccepted := by
  refine ⟨fun tr s => ?accepted, transactAll_exists_next, fun trs tr s o ho => ?oneMore,
    fun trs s u hbegins hfont hrng herrors => ?independent⟩
  case accepted =>
    obtain ⟨t, ht⟩ := transact_exists_next tr s
    exact ⟨t, ht, transact_font ht⟩
  case oneMore =>
    obtain ⟨t, ht⟩ := transact_exists_next tr o.final
    exact ⟨t, ht, transactAll_concat ho ht⟩
  case independent =>
    obtain ⟨tr, rest, rfl, hfirst⟩ := eq_cons_of_beginsRun hbegins
    simp only [transactAll, hfirst, State.reinitialize_congr hfont hrng herrors]

/-! ## The transactions on keys, screen and status -/

/-- Settles O54: the key vector is the one of the request, and the response is all else that changes. -/
theorem setKeysReplacesTheVector : Obligations.SetKeysReplacesTheVector := fun _ _ =>
  ⟨_, rfl, fun _ _ => rfl, rfl⟩

theorem hostConsumeDrawFlag_response (s : State) : (hostConsumeDrawFlag s).response = .drawFlag s.dirty := rfl

theorem hostConsumeDrawFlag_block (s : State) : (hostConsumeDrawFlag s).block = { s with dirty := false }.block := rfl

/-- Settles O55: the second call finds DIRTY cleared by the first. -/
theorem consumeReadsAndClearsTheDirtyFlag : Obligations.ConsumeReadsAndClearsTheDirtyFlag := fun s =>
  ⟨hostConsumeDrawFlag s, hostConsumeDrawFlag (hostConsumeDrawFlag s), rfl, hostConsumeDrawFlag_response s,
    hostConsumeDrawFlag_block s, rfl, hostConsumeDrawFlag_response _, hostConsumeDrawFlag_block _⟩

/-- Settles O56: each is a response alone. -/
theorem observationsWriteNothing : Obligations.ObservationsWriteNothing := fun s =>
  ⟨⟨_, rfl, s.respond_response _, s.respond_block _⟩, ⟨_, rfl, s.respond_response _, s.respond_block _⟩⟩

end Sys2Proof.Machine

/-! PROOFS. Exceptions and timers (60_exceptions.md): the table of R230 against the execute phase, one row per raising
form, and the timer tick (R230 to R240). -/

namespace Sys2Proof.Machine

/-! ## The instruction's own check -/

/-- The check of R230 decides how `i` ends in `s` (R234, R237): it names no kind and `i` completes with nothing recorded,
or it names the kind that `i` raises. -/
def State.CheckDecides (s : State) (i : Instr) : Prop :=
  (s.check i = none ∧ ∃ t, exec i s = .next t ∧ t.response = .ok ∧ t.errors = s.errors) ∨
  ∃ k, s.check i = some k ∧ exec i s = .next (s.raise k i)

/-- The form of Dxyn, Fx33, Fx55 and Fx65: a range check before any write, whose failure is the cause that R230 lists. -/
theorem State.checkDecides_of_rangeOk {s t : State} {i : Instr} {n : Nat} {cause : Prop} [Decidable cause]
    (hcheck : s.check i = if cause then some .memoryBoundsError else none)
    (hexec : exec i s = if s.rangeOk n then .next t.complete else .next (s.raise .memoryBoundsError i))
    (hcause : cause ↔ ¬(n = 0 ∨ s.iReg.toNat + n ≤ 4096)) (ht : t.errors = s.errors) : s.CheckDecides i := by
  rw [← s.rangeOk_iff] at hcause
  by_cases hrange : s.rangeOk n = true
  · exact .inl ⟨hcheck.trans (if_neg fun h => hcause.mp h hrange), _, hexec.trans (if_pos hrange), rfl, ht⟩
  · exact .inr ⟨_, hcheck.trans (if_pos (hcause.mpr hrange)), hexec.trans (if_neg hrange)⟩

/-- Every instruction, in the groups of R230: the stack, the key index, the memory ranges, and those that never raise. -/
theorem State.checkDecides (s : State) (i : Instr) : s.CheckDecides i := by
  cases i with
  | ret =>
    rcases s.pop_cases with ⟨hempty, hp⟩ | ⟨hoccupied, _, hp⟩ <;> simp only [State.CheckDecides, exec, execRet, hp]
    · exact .inr ⟨_, if_pos hempty, rfl⟩
    · exact .inl ⟨if_neg hoccupied, _, rfl, rfl, rfl⟩
  | call nnn =>
    rcases s.push_cases s.pc with ⟨hfull, hp⟩ | ⟨hfree, hp⟩ <;> simp only [State.CheckDecides, exec, execCall, hp]
    · exact .inr ⟨_, if_pos hfull, rfl⟩
    · exact .inl ⟨if_neg (Nat.ne_of_lt hfree), _, rfl, rfl, rfl⟩
  | skp x | sknp x =>
    rcases s.keyIndex_cases x with ⟨hbad, hk⟩ | ⟨hgood, hk⟩ <;>
      simp only [State.CheckDecides, exec, execSkp, execSknp, hk]
    · exact .inr ⟨_, if_pos hbad, rfl⟩
    · exact .inl ⟨if_neg (Nat.not_lt.mpr hgood), _, rfl, rfl, rfl⟩
  | ldVxK x =>
    rcases lowestPressed_cases s.keys with ⟨_, hk⟩ | ⟨_, _, _, _, hk⟩ <;>
      simp only [State.CheckDecides, exec, execLdVxK, hk] <;>
      exact .inl ⟨rfl, _, rfl, rfl, rfl⟩
  | drw x y n | ldB x | storeRegs x | loadRegs x => exact State.checkDecides_of_rangeOk rfl rfl (by omega) rfl
  | _ => exact .inl ⟨rfl, _, rfl, rfl, rfl⟩

/-- Settles O10: the check decides how each instruction ends, and raising is the report alone. -/
theorem errorsAreExactlyTheListedOnes : Obligations.ErrorsAreExactlyTheListedOnes := by
  intro i s
  rcases s.checkDecides i with ⟨hcheck, t, hexec, hend⟩ | ⟨k, hcheck, hexec⟩ <;> rw [hcheck]
  · exact ⟨t, hexec, hend⟩
  · exact ⟨_, hexec, rfl⟩

/-! ## The timer tick -/

/-- A timer counts down by 1 and stops at 0 (R240), as subtraction of natural numbers does. -/
theorem toNat_countDown (t : Byte) : (countDown t).toNat = t.toNat - 1 := by
  unfold countDown
  split
  case isTrue hpos => exact BitVec.toNat_sub_of_le (BitVec.le_def.mpr hpos)
  case isFalse hzero => omega

/-- Settles O53: `toNat_countDown` for each timer; the tick writes the two of them and the response. -/
theorem ticksCountDownToZero : Obligations.TicksCountDownToZero := fun s =>
  ⟨_, rfl, toNat_countDown s.dt, toNat_countDown s.st, rfl⟩

end Sys2Proof.Machine

/-! PROOFS. The transactions construct and reset (70_reset_and_hazards.md R260, R261): both initialise the block again. -/

namespace Sys2Proof.Machine

theorem transact_construct (s : State) : transact .construct s = .next s.reinitialize := rfl

theorem transact_reset (s : State) : transact .reset s = .next s.reinitialize := rfl

/-- Settles O51: both transactions are `State.reinitialize`, which builds the state of R260 anew and takes FONT, the place
in the random sequence and the record of errors from the state before, and no other field. -/
theorem resetTransactionRestoresConstruction : Obligations.ResetTransactionRestoresConstruction := fun s =>
  ⟨transact_reset s, transact_construct s⟩

end Sys2Proof.Machine
